-- ==== Sys2Proof/Word.lean ====
section
/-! DEFINITION. The word types of the block: 00_scope.md R13, R14; 30_encoding.md R85, R91. -/

namespace Sys2Proof

/-- A byte, 0 to 255 (R13). -/
abbrev Byte := BitVec 8

/-- A 64-bit pattern, the kind `u64` of R14. -/
abbrev U64 := BitVec 64

/-- One command packet `pkt[63:0]` (R85). -/
abbrev Packet := BitVec 64

/-- An unsigned 10-bit offset or length of a BUF range (R91). -/
abbrev Off := BitVec 10

end Sys2Proof
end

