-- ==== Sys2Proof/Syntax.lean ====
section
/-! DEFINITION. The 23 commands of 30_encoding.md R96, one constructor for each row of the opcode table. -/

namespace Sys2Proof

/-- A general register number, 0 to 7 (10_state.md R21). -/
abbrev Reg := Fin 8

/-- The five key selectors of 45_drsa.md R256. -/
inductive KeySel where
  /-- PUB.N, 0x00. -/
  | pubN
  /-- PUB.E, 0x01. -/
  | pubE
  /-- PRIV.D, 0x80. -/
  | privD
  /-- PRIV.P, 0x81. -/
  | privP
  /-- PRIV.Q, 0x82. -/
  | privQ
deriving DecidableEq, Repr

/-- The commands (30_encoding.md R96). The operands of each are those of the table's "operands" column, in its order;
immediates are unsigned (R95). -/
inductive Instr where
  /-- SYS.STATUS (46_system.md R271). -/
  | sysStatus
  /-- SYS.RESET (46_system.md R272). -/
  | sysReset
  /-- BUF.WR off, byte (46_system.md R274). -/
  | bufWr (off : Off) (byte : Byte)
  /-- BUF.RD off (46_system.md R275). -/
  | bufRd (off : Off)
  /-- XS.RESEED off, len (40_xorshift.md R118). -/
  | xsReseed (off len : Off)
  /-- XS.NEXT (40_xorshift.md R120). -/
  | xsNext
  /-- XS.FILL off, len (40_xorshift.md R122). -/
  | xsFill (off len : Off)
  /-- SW.LOADPAT off, len (41_window.md R136). -/
  | swLoadpat (off len : Off)
  /-- SW.PUSH k (41_window.md R138). -/
  | swPush (k : Byte)
  /-- SW.MATCH (41_window.md R140). -/
  | swMatch
  /-- SW.CLEAR (41_window.md R142). -/
  | swClear
  /-- PRBG.SETUP arg (42_prbg_setup.md R168). -/
  | prbgSetup (arg : BitVec 32)
  /-- BN.LOAD gd, off, len (43_bignum.md R187). -/
  | bnLoad (gd : Reg) (off len : Off)
  /-- BN.STORE gs, off, len (43_bignum.md R189). -/
  | bnStore (gs : Reg) (off len : Off)
  /-- BN.GCD gd, gs1, gs2 (43_bignum.md R196). -/
  | bnGcd (gd gs1 gs2 : Reg)
  /-- BN.MODEXP gd, gs1, gs2, gs3 (43_bignum.md R199). -/
  | bnModexp (gd gs1 gs2 gs3 : Reg)
  /-- BN.MODINV gd, gs1, gs2 (43_bignum.md R202). -/
  | bnModinv (gd gs1 gs2 : Reg)
  /-- PR.SIEVE gs1, k (44_prime.md R217). -/
  | prSieve (gs1 : Reg) (k : Byte)
  /-- PR.PPTEST gs1 (44_prime.md R224). -/
  | prPptest (gs1 : Reg)
  /-- PR.NEXTPP gd, gs1 (44_prime.md R227). -/
  | prNextpp (gd gs1 : Reg)
  /-- PR.SEARCH gd, gs1 (44_prime.md R230). -/
  | prSearch (gd gs1 : Reg)
  /-- DRSA.DERIVE off, len (45_drsa.md R247). -/
  | drsaDerive (off len : Off)
  /-- KEY.GET gd, k (45_drsa.md R256). -/
  | keyGet (gd : Reg) (sel : KeySel)
deriving DecidableEq, Repr

end Sys2Proof
end

