-- ==== Sys2Proof/WellFormed.lean ====
section
/-! DEFINITION. Which terms of `Instr` stand for a legal packet. Register numbers, offsets, lengths and key selectors
carry their bounds in their types; the one bound that is left is the start index of PR.SIEVE (30_encoding.md R98 g). -/

namespace Sys2Proof

/-- A term of `Instr` is well formed iff some legal packet encodes it: PR.SIEVE's start index is at most 168
(30_encoding.md R92, R98 g). -/
def Instr.wellFormed : Instr → Bool
  | .sysStatus => true
  | .sysReset => true
  | .bufWr _ _ => true
  | .bufRd _ => true
  | .xsReseed _ _ => true
  | .xsNext => true
  | .xsFill _ _ => true
  | .swLoadpat _ _ => true
  | .swPush _ => true
  | .swMatch => true
  | .swClear => true
  | .prbgSetup _ => true
  | .bnLoad _ _ _ => true
  | .bnStore _ _ _ => true
  | .bnGcd _ _ _ => true
  | .bnModexp _ _ _ _ => true
  | .bnModinv _ _ _ => true
  | .prSieve _ k => decide (k.toNat ≤ 168)
  | .prPptest _ => true
  | .prNextpp _ _ => true
  | .prSearch _ _ => true
  | .drsaDerive _ _ => true
  | .keyGet _ _ => true

end Sys2Proof
end

