-- ==== Sys2Proof/Decode.lean ====
section
/-! DEFINITION. The decoder and the encoder of command packets, written from 30_encoding.md: the packet R85, the five
formats R89 to R94, the opcode map R96, the illegal packets R98. Every one of the 2 ^ 64 packets decodes to a command
or to a named reason for E_ILLEGAL (R99). -/

namespace Sys2Proof

/-- Why a packet is illegal: the cases (a) to (h) of R98. The block answers each with E_ILLEGAL and does not tell the
host which; the reason names the case for a reader of the model. -/
inductive IllegalPacket where
  /-- (a) op is not one of the 23 opcodes. -/
  | unknownOpcode
  /-- (b) a bit the format marks "zero" is 1. -/
  | zeroBitSet
  /-- (c) a register field holds 8 to 15. -/
  | registerOutOfRange
  /-- (d) a register field the command does not use is not 0. -/
  | unusedRegisterSet
  /-- (e) `arg` is not 0 in a command other than PRBG.SETUP. -/
  | argSet
  /-- (f) `byte` is not 0 in BUF.RD. -/
  | byteSet
  /-- (g) `k` is above 168 in PR.SIEVE. -/
  | sieveIndexOutOfRange
  /-- (h) `k` is not a key selector in KEY.GET. -/
  | unknownSelector
deriving DecidableEq, Repr

/-- What the decoder answers. -/
abbrev Decoded := Except IllegalPacket Instr

/-- `arg = pkt[63:32]` (R85). -/
def pktArg (p : Packet) : BitVec 32 := p.extractLsb' 32 32

/-- `op = word[31:24]` (R85). -/
def pktOp (p : Packet) : BitVec 8 := p.extractLsb' 24 8

/-- `word[23:0]`, the 24 bits a format lays out (R85). -/
def pktRest (p : Packet) : BitVec 24 := p.extractLsb' 0 24

/-- Require a field to be 0, else reject for the given reason (R98: no bit is ignored). -/
def onlyZero {n : Nat} (field : BitVec n) (reason : IllegalPacket) (r : Decoded) : Decoded :=
  if field = 0#n then r else .error reason

/-- A register field: 0 to 7 name g0 to g7, 8 to 15 are illegal (R93). -/
def regField (field : BitVec 4) (k : Reg → Decoded) : Decoded :=
  if h : field.toNat < 8 then k ⟨field.toNat, h⟩ else .error .registerOutOfRange

/-- A register field the command does not use must be 0 (R90; R98 d). -/
def noReg (field : BitVec 4) (r : Decoded) : Decoded := onlyZero field .unusedRegisterSet r

/-- Format Z: `word[23:0]` is 0 (R89). -/
def formatZ (w : BitVec 24) (r : Decoded) : Decoded := onlyZero w .zeroBitSet r

/-- Format R: rd 23:20, rs1 19:16, rs2 15:12, rs3 11:8, `word[7:0]` is 0 (R90). -/
def formatR (w : BitVec 24) (k : BitVec 4 → BitVec 4 → BitVec 4 → BitVec 4 → Decoded) : Decoded :=
  onlyZero (w.extractLsb' 0 8) .zeroBitSet
    (k (w.extractLsb' 20 4) (w.extractLsb' 16 4) (w.extractLsb' 12 4) (w.extractLsb' 8 4))

/-- Format B: r 23:20, off 19:10, len 9:0 (R91). -/
def formatB (w : BitVec 24) (k : BitVec 4 → Off → Off → Decoded) : Decoded :=
  k (w.extractLsb' 20 4) (w.extractLsb' 10 10) (w.extractLsb' 0 10)

/-- Format K: rd 23:20, rs1 19:16, `word[15:8]` is 0, k 7:0 (R92). -/
def formatK (w : BitVec 24) (k : BitVec 4 → BitVec 4 → Byte → Decoded) : Decoded :=
  onlyZero (w.extractLsb' 8 8) .zeroBitSet
    (k (w.extractLsb' 20 4) (w.extractLsb' 16 4) (w.extractLsb' 0 8))

/-- Format O: `word[23:20]` is 0, off 19:10, `word[9:8]` is 0, byte 7:0 (R94). -/
def formatO (w : BitVec 24) (k : Off → Byte → Decoded) : Decoded :=
  onlyZero (w.extractLsb' 20 4) .zeroBitSet
    (onlyZero (w.extractLsb' 8 2) .zeroBitSet (k (w.extractLsb' 10 10) (w.extractLsb' 0 8)))

/-- The start index of PR.SIEVE: 0 to 168 (R92; R98 g). -/
def sieveIndex (k : Byte) (r : Decoded) : Decoded :=
  if k.toNat ≤ 168 then r else .error .sieveIndexOutOfRange

/-- The key selector of KEY.GET (45_drsa.md R256; R98 h). -/
def selField (k : Byte) (f : KeySel → Decoded) : Decoded :=
  if k = 0x00#8 then f .pubN
  else if k = 0x01#8 then f .pubE
  else if k = 0x80#8 then f .privD
  else if k = 0x81#8 then f .privP
  else if k = 0x82#8 then f .privQ
  else .error .unknownSelector

/-- The opcode map of R96, for the commands whose `arg` is 0. `w` is `word[23:0]`. -/
def decodeWord (op : BitVec 8) (w : BitVec 24) : Decoded :=
  if op = 0x01#8 then formatZ w (.ok .sysStatus)
  else if op = 0x02#8 then formatZ w (.ok .sysReset)
  else if op = 0x08#8 then formatO w fun off byte => .ok (.bufWr off byte)
  else if op = 0x09#8 then formatO w fun off byte => onlyZero byte .byteSet (.ok (.bufRd off))
  else if op = 0x10#8 then formatB w fun r off len => noReg r (.ok (.xsReseed off len))
  else if op = 0x11#8 then formatZ w (.ok .xsNext)
  else if op = 0x12#8 then formatB w fun r off len => noReg r (.ok (.xsFill off len))
  else if op = 0x20#8 then formatB w fun r off len => noReg r (.ok (.swLoadpat off len))
  else if op = 0x21#8 then formatK w fun rd rs1 k => noReg rd (noReg rs1 (.ok (.swPush k)))
  else if op = 0x22#8 then formatZ w (.ok .swMatch)
  else if op = 0x23#8 then formatZ w (.ok .swClear)
  else if op = 0x40#8 then formatB w fun r off len => regField r fun gd => .ok (.bnLoad gd off len)
  else if op = 0x41#8 then formatB w fun r off len => regField r fun gs => .ok (.bnStore gs off len)
  else if op = 0x42#8 then formatR w fun rd rs1 rs2 rs3 =>
    regField rd fun gd => regField rs1 fun a => regField rs2 fun b => noReg rs3 (.ok (.bnGcd gd a b))
  else if op = 0x43#8 then formatR w fun rd rs1 rs2 rs3 =>
    regField rd fun gd => regField rs1 fun a => regField rs2 fun b => regField rs3 fun c =>
      .ok (.bnModexp gd a b c)
  else if op = 0x44#8 then formatR w fun rd rs1 rs2 rs3 =>
    regField rd fun gd => regField rs1 fun a => regField rs2 fun b => noReg rs3 (.ok (.bnModinv gd a b))
  else if op = 0x50#8 then formatK w fun rd rs1 k =>
    noReg rd (regField rs1 fun a => sieveIndex k (.ok (.prSieve a k)))
  else if op = 0x51#8 then formatR w fun rd rs1 rs2 rs3 =>
    noReg rd (regField rs1 fun a => noReg rs2 (noReg rs3 (.ok (.prPptest a))))
  else if op = 0x52#8 then formatR w fun rd rs1 rs2 rs3 =>
    regField rd fun gd => regField rs1 fun a => noReg rs2 (noReg rs3 (.ok (.prNextpp gd a)))
  else if op = 0x53#8 then formatR w fun rd rs1 rs2 rs3 =>
    regField rd fun gd => regField rs1 fun a => noReg rs2 (noReg rs3 (.ok (.prSearch gd a)))
  else if op = 0x60#8 then formatB w fun r off len => noReg r (.ok (.drsaDerive off len))
  else if op = 0x61#8 then formatK w fun rd rs1 k =>
    regField rd fun gd => noReg rs1 (selField k fun sel => .ok (.keyGet gd sel))
  else .error .unknownOpcode

/-- The decoder, a total function from packets to a command or a reason for E_ILLEGAL (R99). `arg` is the iteration
count in PRBG.SETUP and must be 0 in every other command (R87). -/
def decode (p : Packet) : Decoded :=
  if pktOp p = 0x30#8 then formatZ (pktRest p) (.ok (.prbgSetup (pktArg p)))
  else
    match decodeWord (pktOp p) (pktRest p) with
    | .ok i => onlyZero (pktArg p) .argSet (.ok i)
    | .error e => .error e

/-- The packet `{arg, op, word[23:0]}` (R85). -/
def packetOf (arg : BitVec 32) (op : BitVec 8) (w : BitVec 24) : Packet := arg ++ op ++ w

/-- A register number in its 4-bit field, top bit 0 (R93). -/
def regBits (r : Reg) : BitVec 4 := BitVec.ofNat 4 r.val

/-- The selector's 8-bit value (45_drsa.md R256). -/
def selBits : KeySel → Byte
  | .pubN => 0x00#8
  | .pubE => 0x01#8
  | .privD => 0x80#8
  | .privP => 0x81#8
  | .privQ => 0x82#8

/-- The bits `word[23:0]` of format R (R90). -/
def bitsR (rd rs1 rs2 rs3 : BitVec 4) : BitVec 24 := rd ++ rs1 ++ rs2 ++ rs3 ++ 0#8

/-- The bits `word[23:0]` of format B (R91). -/
def bitsB (r : BitVec 4) (off len : Off) : BitVec 24 := r ++ off ++ len

/-- The bits `word[23:0]` of format K (R92). -/
def bitsK (rd rs1 : BitVec 4) (k : Byte) : BitVec 24 := rd ++ rs1 ++ 0#8 ++ k

/-- The bits `word[23:0]` of format O (R94). -/
def bitsO (off : Off) (byte : Byte) : BitVec 24 := 0#4 ++ off ++ 0#2 ++ byte

/-- The encoder: the packet of a command, all unused fields 0 (R102). -/
def encode : Instr → Packet
  | .sysStatus => packetOf 0 0x01#8 0
  | .sysReset => packetOf 0 0x02#8 0
  | .bufWr off byte => packetOf 0 0x08#8 (bitsO off byte)
  | .bufRd off => packetOf 0 0x09#8 (bitsO off 0)
  | .xsReseed off len => packetOf 0 0x10#8 (bitsB 0 off len)
  | .xsNext => packetOf 0 0x11#8 0
  | .xsFill off len => packetOf 0 0x12#8 (bitsB 0 off len)
  | .swLoadpat off len => packetOf 0 0x20#8 (bitsB 0 off len)
  | .swPush k => packetOf 0 0x21#8 (bitsK 0 0 k)
  | .swMatch => packetOf 0 0x22#8 0
  | .swClear => packetOf 0 0x23#8 0
  | .prbgSetup arg => packetOf arg 0x30#8 0
  | .bnLoad gd off len => packetOf 0 0x40#8 (bitsB (regBits gd) off len)
  | .bnStore gs off len => packetOf 0 0x41#8 (bitsB (regBits gs) off len)
  | .bnGcd gd a b => packetOf 0 0x42#8 (bitsR (regBits gd) (regBits a) (regBits b) 0)
  | .bnModexp gd a b c => packetOf 0 0x43#8 (bitsR (regBits gd) (regBits a) (regBits b) (regBits c))
  | .bnModinv gd a b => packetOf 0 0x44#8 (bitsR (regBits gd) (regBits a) (regBits b) 0)
  | .prSieve a k => packetOf 0 0x50#8 (bitsK 0 (regBits a) k)
  | .prPptest a => packetOf 0 0x51#8 (bitsR 0 (regBits a) 0 0)
  | .prNextpp gd a => packetOf 0 0x52#8 (bitsR (regBits gd) (regBits a) 0 0)
  | .prSearch gd a => packetOf 0 0x53#8 (bitsR (regBits gd) (regBits a) 0 0)
  | .drsaDerive off len => packetOf 0 0x60#8 (bitsB 0 off len)
  | .keyGet gd sel => packetOf 0 0x61#8 (bitsK (regBits gd) 0 (selBits sel))

/-- The packet that an opcode-table row's bits stand for: the low `nbits` bits of `w`, every bit above them 0. The table
numbers the packet's bits as R85 does, bit 0 the least significant bit of the command word and bit 32 that of `arg`. -/
def tablePacket (nbits w : Nat) : Packet := BitVec.ofNat 64 (w % 2 ^ nbits)

/-- The instruction the decoder reads from an opcode-table row's bits; none where it refuses. -/
def decodeTableWord (nbits w : Nat) : Option Instr :=
  match decode (tablePacket nbits w) with
  | .ok i => some i
  | .error _ => none

end Sys2Proof
end

