-- ==== Sys2Proof/Config.lean ====
section
/-! DEFINITION. The parameters of the block. Those of 00_scope.md R9 are fixed by the source. Those of R10 are
left to the implementation; R10 lets a model fix each to its default, which is done here (DESIGN CHOICE, unsafe for a
block with other values: log entries 1 and 8). -/

namespace Sys2Proof.Config

/-- `W`, the width in bits of every big-integer register (R10, default 4096). -/
def width : Nat := 4096

/-- `2 ^ W`: a value is storable in a big register iff it is below this (R10, R22). -/
def regLimit : Nat := 2 ^ width

/-- `BUFSZ`, the size in bytes of BUF (R10, default 1024). -/
def bufSize : Nat := 1024

/-- `MR_ROUNDS` (R10, R221, default 50). -/
def mrRounds : Nat := 50

/-- `WIT`, the witness base of each round: the first 50 primes (R10, R221). -/
def witnesses : List Nat :=
  [2, 3, 5, 7, 11, 13, 17, 19, 23, 29, 31, 37, 41, 43, 47, 53, 59, 61, 67, 71, 73, 79, 83, 89, 97] ++
  [101, 103, 107, 109, 113, 127, 131, 137, 139, 149, 151, 157, 163, 167, 173, 179, 181, 191, 193, 197] ++
  [199, 211, 223, 227, 229]

/-- `E`, the public exponent (R9, R39). -/
def publicExponent : Nat := 65537

/-- `LMAX`, the greatest pattern length (R9). -/
def maxPattern : Nat := 31

/-- `RSDRAW`, the number of bytes drawn for a reseed inside setup (R9). -/
def reseedDraw : Nat := 64

end Sys2Proof.Config
end

