-- ==== Sys2Proof/Machine/State.lean ====
section
/-! DEFINITION. The state of the block: 10_state.md R20, one field for each row, then the interface and sequencer state
(R174, R88, R320) and the inputs of R43 and R45 held as plain data. State.reset is 10_state.md R44. -/

namespace Sys2Proof.Machine

/-- The response codes of 60_exceptions.md R286. -/
inductive Code where
  /-- 0x00, the command completed. -/
  | ok
  /-- 0x01, the packet is not a legal encoding (R287). -/
  | eIllegal
  /-- 0x02, a configuration error (R288). -/
  | eConfig
  /-- 0x03, key derivation impossible for this seed (R289). -/
  | eDerive
  /-- 0x04, PRBG.SETUP was cancelled; not an error (R290). -/
  | cancelled
  /-- 0x05, a BUF range or offset reaches past BUFSZ (R291). -/
  | eRange
  /-- 0x06, a value does not fit its destination (R292). -/
  | eOverflow
  /-- 0x07, modulus 0, or no inverse (R293). -/
  | eDomain
  /-- 0x08, a command in the must-discard state (R295). -/
  | eDiscard
  /-- 0x09, KEY.GET while KEYVALID = 0 (R295). -/
  | eNokey
deriving DecidableEq, Repr

/-- What the response port carries: `code`, 8 bits, and `val`, 32 bits (30_encoding.md R88). -/
structure Response where
  code : BitVec 8
  val : BitVec 32
deriving DecidableEq, Repr

/-- Where the block stands between two transitions (42_prbg_setup.md R174, 60_exceptions.md R315). Every command but
PRBG.SETUP is one transition, so only PRBG.SETUP is ever seen in progress. -/
inductive Phase where
  /-- Idle: `busy` = 0, the block takes a packet. -/
  | idle
  /-- PRBG.SETUP, at the point where `cancel_req` is sampled before a byte step (R172). -/
  | sampling
  /-- PRBG.SETUP, right after a matching byte step: the 64 draws come next (R171). -/
  | drawing
deriving DecidableEq, Repr

/-- The two levels the host drives (10_state.md R43, 60_exceptions.md R301). -/
structure Pins where
  hardReset : Bool
  cancelReq : Bool
deriving DecidableEq, Repr

/-- BUF as a list of cells in canonical form: addresses strictly rising, no cell equal to 0, which is what an unlisted
address reads as (20_memory.md R76: 0 if nothing was written since reset). The form is the model's own (log entry 23). -/
abbrev Memory := List Host.Cell

/-- The whole state of one block instance. -/
structure State where
  /-- `XS`, the generator state (R25). -/
  xs : U64
  /-- Flag `SEEDED` (R27). -/
  seeded : Bool
  /-- Flag `PATVALID` (R31). -/
  patValid : Bool
  /-- `PATLEN`, the pattern's length and the window's capacity (R35). -/
  patLen : Fin 32
  /-- `PAT[0..30]`, the confusion pattern (R35). -/
  pat : Vector Byte 31
  /-- `WINLEN` (R37). -/
  winLen : Fin 32
  /-- `WIN[0..30]`, the sliding window, oldest byte first (R37). -/
  win : Vector Byte 31
  /-- `g[0..7]`, the general big-integer registers (R21). -/
  g : Vector Nat 8
  /-- `KP`, the prime p (R38). -/
  kp : Nat
  /-- `KQ`, the prime q (R38). -/
  kq : Nat
  /-- `KN`, the modulus n (R38). -/
  kn : Nat
  /-- `KPHI`, the totient φ, which no command returns (R38, R40). -/
  kphi : Nat
  /-- `KD`, the private exponent d (R38). -/
  kd : Nat
  /-- Flag `KEYVALID` (R32). -/
  keyValid : Bool
  /-- Flag `DISCARD`, the must-discard state (R33). -/
  discard : Bool
  /-- `BUF[0..BUFSZ-1]`, the byte buffer (R41). -/
  buf : Memory
  /-- `ITER_REM`, the outer loop counter of PRBG.SETUP (R29). -/
  iterRem : BitVec 32
  /-- The sequencer's position (R174, R320); `busy` is `phase ≠ idle`. -/
  phase : Phase
  /-- The response port: the last command's response, until the host takes it (R88, R320). -/
  response : Option Response
  /-- INPUT (the model's field, R45): the packets the host has not yet sent, in order. -/
  packets : List Packet
  /-- INPUT (the model's field, R43): the levels now at the two pins. -/
  pins : Pins
  /-- INPUT (the model's field, R45): the levels at the following transitions; where it is empty the levels hold. -/
  script : List Pins
deriving DecidableEq, Repr

/-- Why the machine stops with a fault: never. Every packet in every state has an effect or a response code the spec
gives (30_encoding.md R99, 60_exceptions.md R285), so this type has no constructor: nothing raises it (safe). -/
inductive Fault
deriving DecidableEq, Repr

/-- Why the machine refuses an instruction. -/
inductive Refusal where
  /-- The instruction has no meaning in this model yet. Raised by a refused arm of `exec` only; no arm is refused in
  this model. Safe: a refusal proves nothing of the hardware. -/
  | notModelled (mnemonic : String)
deriving DecidableEq, Repr

/-- What one step or one meaning answers. -/
abbrev Result := Host.Outcome State Fault Refusal

/-- The machine right after reset: every element of R20 at the value R44 states, the block idle and no response on the
port (R326). The inputs are a host that sends nothing and drives both levels low (DESIGN CHOICE, log entry 2). -/
def State.reset : State where
  xs := 0
  seeded := false
  pat := Vector.replicate 31 0
  patLen := 0
  patValid := false
  win := Vector.replicate 31 0
  winLen := 0
  g := Vector.replicate 8 0
  kp := 0
  kq := 0
  kn := 0
  kphi := 0
  kd := 0
  keyValid := false
  discard := false
  buf := []
  iterRem := 0
  phase := .idle
  response := none
  packets := []
  pins := { hardReset := false, cancelReq := false }
  script := []

end Sys2Proof.Machine
end

