-- ==== Sys2Proof/Machine/Ops.lean ====
section
/-! DEFINITION. The named operations the meanings share: byte sequences and their big-endian reading (00_scope.md R17),
BUF (20_memory.md R66, R67), big registers (10_state.md R22, R24), the response (30_encoding.md R88), ending a command
with an error (60_exceptions.md R303) and running a command under the common checks (R294, R296), reset (R44). -/

namespace Sys2Proof.Machine

/-! Byte sequences. -/

/-- `be(s)`: the unsigned big-endian value of a byte sequence, the first byte the most significant (R17, R62). -/
def be (s : List Byte) : Nat := s.foldl (fun acc b => acc * 256 + b.toNat) 0

/-- `tobe(v, n)`: the `n`-byte sequence whose big-endian value is `v`, for `v < 256 ^ n` (R17). -/
def tobe (v : Nat) : Nat → List Byte
  | 0 => []
  | n + 1 => BitVec.ofNat 8 (v / 256 ^ n) :: tobe v n

/-- `zext64(be(s) mod 2^32)`: the value a reseed loads (40_xorshift.md R118, `SEEDMASK` of R9). -/
def seedOf (s : List Byte) : U64 := BitVec.ofNat 64 (be s % 2 ^ 32)

/-! BUF. -/

/-- `BUF[a]`; a cell nothing has written since reset reads 0 (R76). -/
def memRead : Memory → Nat → Byte
  | [], _ => 0#8
  | c :: m, a => if c.1 = a then c.2 else memRead m a

/-- Put a cell at its place in a list of cells with rising addresses. -/
def memInsert : Memory → Nat → Byte → Memory
  | [], a, b => [(a, b)]
  | c :: m, a, b => if a < c.1 then (a, b) :: c :: m else c :: memInsert m a b

/-- Take every cell at an address out of the list. -/
def memErase (m : Memory) (a : Nat) : Memory := m.filter fun c => c.1 != a

/-- `BUF[a] <- b`. A cell that becomes 0 is not listed, so that equal memories are equal lists. -/
def memWrite (m : Memory) (a : Nat) (b : Byte) : Memory :=
  if b = 0#8 then memErase m a else memInsert (memErase m a) a b

/-- `[BUF[off], ..., BUF[off+n-1]]` (R66, after the bounds check). -/
def memReadRange (m : Memory) (off : Nat) : Nat → List Byte
  | 0 => []
  | n + 1 => memRead m off :: memReadRange m (off + 1) n

/-- `BUF[off+i] <- s[i]`, lowest offset first (R67, after the bounds check). -/
def memWriteRange (m : Memory) (off : Nat) : List Byte → Memory
  | [] => m
  | b :: s => memWriteRange (memWrite m off b) (off + 1) s

/-- The canonical form from a lowest address on: addresses strictly rising and below BUFSZ, no cell 0. -/
def memWfFrom (lo : Nat) : Memory → Bool
  | [] => true
  | c :: m => decide (lo ≤ c.1) && decide (c.1 < Config.bufSize) && c.2 != 0#8 && memWfFrom (c.1 + 1) m

/-- The canonical form of BUF, the model's own list form (log entry 23), over the offsets of R41 and R61. -/
def memWf (m : Memory) : Bool := memWfFrom 0 m

/-! Big registers. -/

/-- `g[r]`: reading a general register never faults (R24). -/
def State.reg (s : State) (r : Reg) : Nat := s.g[r.val]

/-- `g[r] <- v` (R22; the caller has checked that the value is storable). -/
def State.setReg (s : State) (r : Reg) (v : Nat) : State := { s with g := s.g.set r.val v }

/-- A value is storable in a big register iff it is below 2^W (R22). -/
def storable (v : Nat) : Bool := decide (v < Config.regLimit)

/-- `XS <- x` (10_state.md R25). -/
def State.setXs (s : State) (x : U64) : State := { s with xs := x }

/-! Responses and errors. -/

/-- The code's 8 bits (R286). -/
def Code.bits : Code → BitVec 8
  | .ok => 0x00#8
  | .eIllegal => 0x01#8
  | .eConfig => 0x02#8
  | .eDerive => 0x03#8
  | .cancelled => 0x04#8
  | .eRange => 0x05#8
  | .eOverflow => 0x06#8
  | .eDomain => 0x07#8
  | .eDiscard => 0x08#8
  | .eNokey => 0x09#8

/-- `respond(code, v)`: put the response on the port (R88, R320 step 4). -/
def State.respond (s : State) (c : Code) (v : BitVec 32) : State :=
  { s with response := some { code := c.bits, val := v } }

/-- `raise E_X`: the command ends, the response carries the code and 0, nothing else changes. This is the block's whole
trap entry: no state is saved, no mode changes, control goes nowhere, and there is no return (R296, R303, R304). -/
def State.raise (s : State) (c : Code) : Result := .next (s.respond c 0#32)

/-- What a command computes from the state it finds: the new state and the response value, or the code of the first
check that fails (R296). -/
abbrev Effect := Except Code (State × BitVec 32)

/-- Run a command: the must-discard check, then the command's own checks and effect. An error leaves the state as it was
(R294 (2), R295, R296). -/
def State.command (s : State) (effect : Effect) : Result :=
  if s.discard then s.raise .eDiscard
  else
    match effect with
    | .ok (t, v) => .next (t.respond .ok v)
    | .error c => s.raise c

/-! Reset. -/

/-- Every state element to its reset value (R44); what the host will send and drive is not the block's state. The
response port is emptied (70_reset_and_hazards.md R326). -/
def State.resetBlock (s : State) : State :=
  { State.reset with packets := s.packets, pins := s.pins, script := s.script }

end Sys2Proof.Machine
end

