-- ==== Sys2Proof/Machine/Operands.lean ====
section
/-! DEFINITION. The operand forms of the commands (30_encoding.md R95): a general register (`State.reg`, Ops.lean), a
BUF range, a single cell, an immediate, a key selector. There are no other addressing modes. -/

namespace Sys2Proof.Machine

/-- The bound check of a BUF range: off + len ≤ BUFSZ, no wrap-around (20_memory.md R66, R67). -/
def rangeFits (off len : Off) : Bool := decide (off.toNat + len.toNat ≤ Config.bufSize)

/-- The bound check of a single cell: off < BUFSZ (46_system.md R274, R275). -/
def cellFits (off : Off) : Bool := decide (off.toNat < Config.bufSize)

/-- `MemRead(off, len)` of a range that fits (R66). -/
def State.readRange (s : State) (off len : Off) : List Byte := memReadRange s.buf off.toNat len.toNat

/-- `MemWrite(off, n, bytes)` of a range that fits (R67). -/
def State.writeRange (s : State) (off : Off) (bytes : List Byte) : State :=
  { s with buf := memWriteRange s.buf off.toNat bytes }

/-- The value a key selector names (45_drsa.md R256; PUB.E is the constant of R39). -/
def State.keyValue (s : State) : KeySel → Nat
  | .pubN => s.kn
  | .pubE => Config.publicExponent
  | .privD => s.kd
  | .privP => s.kp
  | .privQ => s.kq

end Sys2Proof.Machine
end

