-- ==== Sys2Proof/Machine/Bignum.lean ====
section
/-! DEFINITION. The big-integer engine: 43_bignum.md. The loops are those of the rules; each carries a fuel that bounds
its number of turns (the variable that a turn strictly lowers), so that the recursion is structural. -/

namespace Sys2Proof.Machine

/-- Euclid's loop: (a, b) = (b, a mod b) while b ≠ 0 (R195). -/
def gcdLoop : Nat → Nat → Nat → Nat
  | 0, a, _ => a
  | f + 1, a, b => if b = 0 then a else gcdLoop f b (a % b)

/-- `gcd(a, b)` (R195): a turn of the loop lowers `b`, so `b` turns are enough. -/
def euclidGcd (a b : Nat) : Nat := gcdLoop b a b

/-- The loop of binary exponentiation (R198): r, b, e, m. -/
def modexpLoop : Nat → Nat → Nat → Nat → Nat → Nat
  | 0, r, _, _, _ => r
  | f + 1, r, b, e, m =>
    if e = 0 then r
    else modexpLoop f (if e % 2 = 1 then r * b % m else r) (b * b % m) (e / 2) m

/-- `modexp(b, e, m)` for m ≥ 1 (R198): a turn of the loop lowers `e`, so `e` turns are enough. -/
def modexp (b e m : Nat) : Nat := modexpLoop e (1 % m) (b % m) e m

/-- The loop of the extended Euclidean algorithm (R201): r0, r1 and the signed t0, t1; it answers the last (r0, t0). -/
def modinvLoop : Nat → Nat → Nat → Int → Int → Nat × Int
  | 0, r0, _, t0, _ => (r0, t0)
  | f + 1, r0, r1, t0, t1 =>
    if r1 = 0 then (r0, t0)
    else modinvLoop f r1 (r0 - r0 / r1 * r1) t1 (t0 - (r0 / r1 : Nat) * t1)

/-- `modinv(a, m)` for m ≥ 1: the inverse of `a` modulo `m` in 0 .. m - 1, or none where the gcd is not 1 (R201). A turn
of the loop lowers r1, so `a mod m` turns are enough. -/
def modinv (a m : Nat) : Option Nat :=
  let last := modinvLoop (a % m) m (a % m) 0 1
  if last.1 = 1 then some (last.2 % (m : Int)).toNat else none

/-- BN.LOAD gd, off, len (R187). -/
def execBnLoad (gd : Reg) (off len : Off) (s : State) : Result :=
  s.command <|
    if !rangeFits off len then .error .eRange
    else if !storable (be (s.readRange off len)) then .error .eOverflow
    else .ok (s.setReg gd (be (s.readRange off len)), 0#32)

/-- BN.STORE gs, off, len (R189): the range is checked before the size. -/
def execBnStore (gs : Reg) (off len : Off) (s : State) : Result :=
  s.command <|
    if !rangeFits off len then .error .eRange
    else if 256 ^ len.toNat ≤ s.reg gs then .error .eOverflow
    else .ok (s.writeRange off (tobe (s.reg gs) len.toNat), 0#32)

/-- BN.GCD gd, gs1, gs2 (R196): it cannot overflow. -/
def execBnGcd (gd gs1 gs2 : Reg) (s : State) : Result :=
  s.command <| .ok (s.setReg gd (euclidGcd (s.reg gs1) (s.reg gs2)), 0#32)

/-- BN.MODEXP gd, gs1, gs2, gs3 (R199): base, exponent, modulus; modulus 0 is E_DOMAIN. -/
def execBnModexp (gd gs1 gs2 gs3 : Reg) (s : State) : Result :=
  s.command <|
    if s.reg gs3 = 0 then .error .eDomain
    else .ok (s.setReg gd (modexp (s.reg gs1) (s.reg gs2) (s.reg gs3)), 0#32)

/-- BN.MODINV gd, gs1, gs2 (R202): modulus 0, or no inverse, is E_DOMAIN. -/
def execBnModinv (gd gs1 gs2 : Reg) (s : State) : Result :=
  s.command <|
    if s.reg gs2 = 0 then .error .eDomain
    else
      match modinv (s.reg gs1) (s.reg gs2) with
      | none => .error .eDomain
      | some x => .ok (s.setReg gd x, 0#32)

end Sys2Proof.Machine
end

