-- ==== Sys2Proof/Machine/Prime.lean ====
section
/-! DEFINITION. The prime engine: 44_prime.md, and its table 10_state.md R36. -/

namespace Sys2Proof.Machine

/-- `SPT`, the 168 primes below 1000 in ascending order, a read-only memory (10_state.md R36). -/
def smallPrimes : List Nat :=
  [2, 3, 5, 7, 11, 13, 17, 19, 23, 29, 31, 37, 41, 43, 47, 53, 59, 61, 67, 71, 73, 79, 83, 89] ++
  [97, 101, 103, 107, 109, 113, 127, 131, 137, 139, 149, 151, 157, 163, 167, 173, 179, 181, 191, 193, 197, 199, 211, 223] ++
  [227, 229, 233, 239, 241, 251, 257, 263, 269, 271, 277, 281, 283, 293, 307, 311, 313, 317, 331, 337, 347, 349, 353, 359] ++
  [367, 373, 379, 383, 389, 397, 401, 409, 419, 421, 431, 433, 439, 443, 449, 457, 461, 463, 467, 479, 487, 491, 499, 503] ++
  [509, 521, 523, 541, 547, 557, 563, 569, 571, 577, 587, 593, 599, 601, 607, 613, 617, 619, 631, 641, 643, 647, 653, 659] ++
  [661, 673, 677, 683, 691, 701, 709, 719, 727, 733, 739, 743, 751, 757, 761, 769, 773, 787, 797, 809, 811, 821, 823, 827] ++
  [829, 839, 853, 857, 859, 863, 877, 881, 883, 887, 907, 911, 919, 929, 937, 941, 947, 953, 967, 971, 977, 983, 991, 997]

/-! The small-prime filter (R216). -/

/-- Scan table entries from index `j` on: the index of the first that divides `c`, or the index past the last. -/
def sieveFrom (c : Nat) : List Nat → Nat → Nat
  | [], j => j
  | p :: ps, j => if c % p = 0 then j else sieveFrom c ps (j + 1)

/-- `sieve(c, k)` for 0 ≤ k ≤ 168 (R216). -/
def sieve (c k : Nat) : Nat := sieveFrom c (smallPrimes.drop k) k

/-! The probable-prime test (R222). -/

/-- While `d` is even: halve it and count. A turn lowers `d`. -/
def oddPartLoop : Nat → Nat → Nat → Nat × Nat
  | 0, d, s => (d, s)
  | f + 1, d, s => if d % 2 = 0 then oddPartLoop f (d / 2) (s + 1) else (d, s)

/-- `(d, s)` with n - 1 = 2^s * d and d odd, for n ≥ 2. -/
def oddPart (n : Nat) : Nat × Nat := oddPartLoop (n - 1) (n - 1) 0

/-- Square `x` up to the given number of times; whether a square is n - 1. -/
def squareLoop (n : Nat) : Nat → Nat → Bool
  | 0, _ => false
  | k + 1, x => if x * x % n = n - 1 then true else squareLoop n k (x * x % n)

/-- One round with base `w`: whether `n` passes (R222). -/
def mrRound (n d s w : Nat) : Bool :=
  let a := w % n
  if a ≤ 1 ∨ a = n - 1 then true
  else
    let x := modexp a d n
    if x = 1 ∨ x = n - 1 then true else squareLoop n (s - 1) x

/-- `ppt(n)`: the Miller-Rabin test with the fixed bases WIT[0..MR_ROUNDS-1] (R221, R222). -/
def ppt (n : Nat) : Bool :=
  if n < 2 then false
  else if n < 4 then true
  else if n % 2 = 0 then false
  else (Config.witnesses.take Config.mrRounds).all (mrRound n (oddPart n).1 (oddPart n).2)

/-! The next probable prime (R226) and the search (R229), on values below 2^W. -/

/-- The least `m` from the given one on, over the given number of candidates, that the test accepts. -/
def nextFrom (test : Nat → Bool) : Nat → Nat → Option Nat
  | 0, _ => none
  | f + 1, m => if test m then some m else nextFrom test f (m + 1)

/-- `nextpp(n)` if it is below 2^W; none if it is 2^W or more, which every caller answers with E_OVERFLOW (R226, R227,
R230; DEDUCED, log entry 7). Irreducible, so that the elaborator never counts the fuel down; the kernel and `unfold` see
through it. -/
@[irreducible] def nextpp (n : Nat) : Option Nat := nextFrom ppt (Config.regLimit - n) n

/-- The single forward pass over table entries: each is tested once against the candidate of its turn, and a divisible
candidate `c` advances to nextpp(c + 1) (R229, R231). none if a value reaches 2^W. -/
def searchScan : List Nat → Nat → Option Nat
  | [], c => some c
  | sp :: ps, c =>
    if c % sp = 0 then
      match nextpp (c + 1) with
      | none => none
      | some c' => searchScan ps c'
    else searchScan ps c

/-- `search(start)` (R229); none if a value it computes is 2^W or more (R230). -/
def search (start : Nat) : Option Nat :=
  match nextpp start with
  | none => none
  | some c => searchScan smallPrimes c

/-! The commands. -/

/-- PR.SIEVE gs1, k (R217): the index in val; no state changes. -/
def execPrSieve (gs1 : Reg) (k : Byte) (s : State) : Result :=
  s.command <| .ok (s, BitVec.ofNat 32 (sieve (s.reg gs1) k.toNat))

/-- PR.PPTEST gs1 (R224): val is 1 or 0; no state changes. -/
def execPrPptest (gs1 : Reg) (s : State) : Result :=
  s.command <| .ok (s, if ppt (s.reg gs1) then 1#32 else 0#32)

/-- PR.NEXTPP gd, gs1 (R227). -/
def execPrNextpp (gd gs1 : Reg) (s : State) : Result :=
  s.command <|
    match nextpp (s.reg gs1) with
    | none => .error .eOverflow
    | some v => .ok (s.setReg gd v, 0#32)

/-- PR.SEARCH gd, gs1 (R230). -/
def execPrSearch (gd gs1 : Reg) (s : State) : Result :=
  s.command <|
    match search (s.reg gs1) with
    | none => .error .eOverflow
    | some v => .ok (s.setReg gd v, 0#32)

end Sys2Proof.Machine
end

