-- ==== Sys2Proof/Machine/Drsa.lean ====
section
/-! DEFINITION. Key derivation and key views: 45_drsa.md. -/

namespace Sys2Proof.Machine

/-- The two halves of a seed as unsigned big-endian integers: the first has len div 2 bytes, the second the rest (R248). -/
def seedHalves (seed : List Byte) : Nat × Nat :=
  (be (seed.take (seed.length / 2)), be (seed.drop (seed.length / 2)))

/-- The five members of the key material (10_state.md R38). -/
structure KeyMaterial where
  p : Nat
  q : Nat
  n : Nat
  phi : Nat
  d : Nat
deriving DecidableEq, Repr

/-- The steps of the derivation after the two searches: product, totient, validation, inverse (R247, R250). Where the gcd
is 1 the inverse has a value (R247), so the last branch is never reached; it answers E_DERIVE (log entry 11). -/
def keyFromPrimes (p q : Nat) : Except Code KeyMaterial :=
  let n := p * q
  let phi := (p - 1) * (q - 1)
  if !storable n then .error .eOverflow
  else if ¬(1 < Config.publicExponent ∧ Config.publicExponent < phi) then .error .eDerive
  else if euclidGcd Config.publicExponent phi ≠ 1 then .error .eDerive
  else
    match modinv Config.publicExponent phi with
    | some d => .ok { p := p, q := q, n := n, phi := phi, d := d }
    | none => .error .eDerive

/-- The key material of a seed, or the code of the first check that fails (R247 to R250). -/
def deriveKey (seed : List Byte) : Except Code KeyMaterial :=
  match search (seedHalves seed).1 with
  | none => .error .eOverflow
  | some p =>
    match search (seedHalves seed).2 with
    | none => .error .eOverflow
    | some q => keyFromPrimes p q

/-- Commit key material: the five key registers and KEYVALID together (R252). -/
def State.commitKey (s : State) (k : KeyMaterial) : State :=
  { s with kp := k.p, kq := k.q, kn := k.n, kphi := k.phi, kd := k.d, keyValid := true }

/-- DRSA.DERIVE off, len (R247). -/
def execDrsaDerive (off len : Off) (s : State) : Result :=
  s.command <|
    if !rangeFits off len then .error .eRange
    else
      match deriveKey (s.readRange off len) with
      | .error c => .error c
      | .ok k => .ok (s.commitKey k, 0#32)

/-- KEY.GET gd, k (R256): every selector needs KEYVALID = 1, PUB.E too (R257). -/
def execKeyGet (gd : Reg) (sel : KeySel) (s : State) : Result :=
  s.command <|
    if !s.keyValid then .error .eNokey
    else .ok (s.setReg gd (s.keyValue sel), 0#32)

end Sys2Proof.Machine
end

