-- ==== Sys2Proof/Machine/Window.lean ====
section
/-! DEFINITION. The sliding-window detector: 41_window.md. -/

namespace Sys2Proof.Machine

/-- Entry `i` of PAT or WIN. No rule reads an entry at or above the length it checks (R141). -/
def entry (v : Vector Byte 31) (i : Nat) : Byte := v[i]?.getD 0#8

/-- The 31 entries that hold a sequence of at most 31 bytes, the rest 0 (R136). -/
def entriesOf (bytes : List Byte) : Vector Byte 31 := Vector.ofFn fun i => bytes[i.val]?.getD 0#8

/-- A full window of capacity `len` after a push: `WIN[i] <- WIN[i+1]` below the last place, the byte in the last place,
the entries from `len` on unchanged (R137). -/
def shiftIn (v : Vector Byte 31) (len : Nat) (b : Byte) : Vector Byte 31 :=
  Vector.ofFn fun i =>
    if i.val + 1 < len then entry v (i.val + 1) else if i.val + 1 = len then b else entry v i.val

/-- `sw_push(b)`: append, and drop the oldest byte of a full window (R137). -/
def State.swPush (s : State) (b : Byte) : State :=
  if s.winLen < s.patLen then
    { s with win := s.win.setIfInBounds s.winLen.val b, winLen := s.winLen + 1 }
  else { s with win := shiftIn s.win s.patLen.val b }

/-- `sw_matches()`: the window is full and equals the pattern position by position; a window that is not full never
matches (R139, R141). -/
def State.swMatches (s : State) : Bool :=
  decide (s.winLen = s.patLen) &&
    (List.range s.patLen.val).all fun i => entry s.win i == entry s.pat i

/-- Empty the window: all entries 0, WINLEN 0 (R142, 42_prbg_setup.md R168). -/
def State.clearWindow (s : State) : State := { s with win := Vector.replicate 31 0#8, winLen := 0 }

/-- Load a pattern of at most 31 bytes and empty the window (R136). -/
def State.loadPattern (s : State) (bytes : List Byte) : State :=
  { s with pat := entriesOf bytes, patLen := Fin.ofNat 32 bytes.length, patValid := true }.clearWindow

/-- SW.LOADPAT off, len (R136): the length check comes before the bounds check (60_exceptions.md R294). -/
def execSwLoadpat (off len : Off) (s : State) : Result :=
  s.command <|
    if len = 0#10 ∨ Config.maxPattern < len.toNat then .error .eConfig
    else if !rangeFits off len then .error .eRange
    else .ok (s.loadPattern (s.readRange off len), 0#32)

/-- SW.PUSH k (R138). -/
def execSwPush (k : Byte) (s : State) : Result :=
  s.command <|
    if !s.patValid then .error .eConfig
    else .ok (s.swPush k, 0#32)

/-- SW.MATCH (R140): val is 1 or 0; no state changes. -/
def execSwMatch (s : State) : Result :=
  s.command <|
    if !s.patValid then .error .eConfig
    else .ok (s, if s.swMatches then 1#32 else 0#32)

/-- SW.CLEAR (R142). -/
def execSwClear (s : State) : Result :=
  s.command <|
    if !s.patValid then .error .eConfig
    else .ok (s.clearWindow, 0#32)

end Sys2Proof.Machine
end

