-- ==== Sys2Proof/Machine/XorShift.lean ====
section
/-! DEFINITION. The XorShift stream: the generator step and the commands of 40_xorshift.md. -/

namespace Sys2Proof.Machine

/-- `xor64(a, b)` (00_scope.md R15). -/
def xor64 (a b : U64) : U64 := a ^^^ b

/-- `shl64(a, n) = (a * 2^n) mod 2^64` (00_scope.md R15). -/
def shl64 (a : U64) (n : Nat) : U64 := a <<< n

/-- `sar64(a, n)`: the arithmetic right shift, the sign bit replicated into the vacated bits (00_scope.md R15). -/
def sar64 (a : U64) (n : Nat) : U64 := a.sshiftRight n

/-- The generator step `xs_step`: three lines, each on the value the line before produced (R116). -/
def xsStep (s : U64) : U64 :=
  let a := xor64 s (shl64 s 13)
  let b := xor64 a (sar64 a 17)
  xor64 b (shl64 b 5)

/-- The output byte of a step, `c[7:0]` of the new state (R117). -/
def xsOut (c : U64) : Byte := c.setWidth 8

/-- The state after `n` steps. -/
def xsIter : Nat → U64 → U64
  | 0, x => x
  | n + 1, x => xsIter n (xsStep x)

/-- The output bytes of the next `n` steps, in the order drawn. -/
def xsBytes : Nat → U64 → List Byte
  | 0, _ => []
  | n + 1, x => xsOut (xsStep x) :: xsBytes n (xsStep x)

/-- XS.RESEED off, len (R118): an empty range is E_CONFIG; the state becomes the range's big-endian value modulo 2^32. -/
def execXsReseed (off len : Off) (s : State) : Result :=
  s.command <|
    if len = 0#10 then .error .eConfig
    else if !rangeFits off len then .error .eRange
    else .ok ({ s.setXs (seedOf (s.readRange off len)) with seeded := true }, 0#32)

/-- XS.NEXT (R120): one step; the byte of the NEW state in val[7:0], val[31:8] = 0. -/
def execXsNext (s : State) : Result :=
  s.command <|
    if !s.seeded then .error .eConfig
    else .ok (s.setXs (xsStep s.xs), (xsOut (xsStep s.xs)).setWidth 32)

/-- XS.FILL off, len (R122): `len` steps, their bytes stored from `off` on. -/
def execXsFill (off len : Off) (s : State) : Result :=
  s.command <|
    if !s.seeded then .error .eConfig
    else if !rangeFits off len then .error .eRange
    else .ok ((s.writeRange off (xsBytes len.toNat s.xs)).setXs (xsIter len.toNat s.xs), 0#32)

end Sys2Proof.Machine
end

