-- ==== Sys2Proof/Machine/Setup.lean ====
section
/-! DEFINITION. PRBG.SETUP: 42_prbg_setup.md R168 to R175. It is the one command that is not a single transition; R174
gives its transitions, which stand here one by one: entry, cancel, byte_step, reseed_and_next. -/

namespace Sys2Proof.Machine

/-- Entry: the window is emptied, ITER_REM is loaded, and the block stands at its first sampling point with no response
on the port (R168, R169). -/
def State.setupEntry (s : State) (arg : BitVec 32) : State :=
  { s.clearWindow with iterRem := arg, phase := .sampling, response := none }

/-- cancel: DISCARD <- 1 and the command ends with (CANCELLED, 0); XS, WIN, WINLEN and ITER_REM stay as the last
completed step left them (R172). -/
def State.cancelSetup (s : State) : State :=
  { s with discard := true, phase := .idle }.respond .cancelled 0#32

/-- PRBG.SETUP arg (R168): SEEDED = 0, PATVALID = 0 or arg = 0 is E_CONFIG, whatever `cancel_req`; otherwise the delay loop
begins. Where `cancel_req` is already 1 at acceptance the command is cancelled right after the entry clearing, before any
byte step (R172; 60_exceptions.md R302 d; log entry 4). -/
def execPrbgSetup (arg : BitVec 32) (s : State) : Result :=
  if s.discard then s.raise .eDiscard
  else if !s.seeded || !s.patValid || arg = 0#32 then s.raise .eConfig
  else if s.pins.cancelReq then .next (s.setupEntry arg).cancelSetup
  else .next (s.setupEntry arg)

/-- One generator step and one push of the new state's low byte: the first two acts of a byte step (R170). -/
def State.drawAndPush (s : State) : State :=
  (s.setXs (xsStep s.xs)).swPush (xsOut (xsStep s.xs))

/-- byte_step: one generator step, one push of the new state's low byte, one match test (R170). A match leaves the inner
loop. -/
def State.byteStep (s : State) : State :=
  if s.drawAndPush.swMatches then { s.drawAndPush with phase := .drawing } else s.drawAndPush

/-- The load of step 3b: 64 bytes are drawn and the state becomes their big-endian value modulo 2^32 (R171). The 64 bytes
are the internal register RSB, which is not architectural (10_state.md R42). -/
def State.setupReseed (s : State) : State :=
  s.setXs (seedOf (xsBytes Config.reseedDraw s.xs))

/-- ITER_REM is decremented; the command ends with (OK, 0) when it reaches 0, else the next outer iteration begins at its
sampling point (R168). -/
def State.nextIteration (s : State) : State :=
  if s.iterRem - 1#32 = 0#32 then { s with iterRem := s.iterRem - 1#32, phase := .idle }.respond .ok 0#32
  else { s with iterRem := s.iterRem - 1#32, phase := .sampling }

/-- reseed_and_next: the 64 draws and the load (step 3b), the window emptied (step 3c), the next outer iteration or the
end, as one transition right after a matching byte step (R168, R174). -/
def State.reseedAndNext (s : State) : State := s.setupReseed.clearWindow.nextIteration

/-- The transition at a sampling point: `cancel_req` is sampled once, before the byte step (R172, 60_exceptions.md R302). -/
def State.sampleAndStep (s : State) : State :=
  if s.pins.cancelReq then s.cancelSetup else s.byteStep

end Sys2Proof.Machine
end

