-- ==== Sys2Proof/Machine/Flags.lean ====
section
/-! DEFINITION. The flags (10_state.md R30) and the views of state: STATUS (R34) and `busy` (R43). There are no
arithmetic condition codes: no command writes a flag as a side effect of arithmetic (R30). -/

namespace Sys2Proof.Machine

/-- A flag as a 32-bit number, 0 or 1. -/
def flagBit (b : Bool) : BitVec 32 := if b then 1#32 else 0#32

/-- STATUS = SEEDED | PATVALID << 1 | KEYVALID << 2 | DISCARD << 3 | PATLEN << 8 | WINLEN << 16 (46_system.md R271;
the layout is 10_state.md R34). -/
def State.statusWord (s : State) : BitVec 32 :=
  flagBit s.seeded ||| (flagBit s.patValid <<< 1) ||| (flagBit s.keyValid <<< 2) ||| (flagBit s.discard <<< 3) |||
    (BitVec.ofNat 32 s.patLen.val <<< 8) ||| (BitVec.ofNat 32 s.winLen.val <<< 16)

/-- The output `busy`: 1 from the acceptance of a packet to its response (R43, 60_exceptions.md R315). -/
def State.busy (s : State) : Bool := s.phase != .idle

end Sys2Proof.Machine
end

