-- ==== Sys2Proof/Machine/System.lean ====
section
/-! DEFINITION. The system and buffer commands: 46_system.md R271, R272, R274, R275. -/

namespace Sys2Proof.Machine

/-- SYS.STATUS (R271): the status word, accepted in the must-discard state as well. -/
def execSysStatus (s : State) : Result := .next (s.respond .ok s.statusWord)

/-- SYS.RESET (R272): every state element to its reset value, accepted in the must-discard state as well. -/
def execSysReset (s : State) : Result := .next (s.resetBlock.respond .ok 0#32)

/-- BUF.WR off, byte (R274). -/
def execBufWr (off : Off) (byte : Byte) (s : State) : Result :=
  s.command <|
    if cellFits off then .ok ({ s with buf := memWrite s.buf off.toNat byte }, 0#32)
    else .error .eRange

/-- BUF.RD off (R275): the byte in val[7:0], val[31:8] = 0. -/
def execBufRd (off : Off) (s : State) : Result :=
  s.command <|
    if cellFits off then .ok (s, (memRead s.buf off.toNat).setWidth 32)
    else .error .eRange

end Sys2Proof.Machine
end

