-- ==== Sys2Proof/Machine/Dispatch.lean ====
section
/-! DEFINITION. The meaning of each command: one arm for each constructor of `Instr`. -/

namespace Sys2Proof.Machine

def exec (i : Instr) (s : State) : Host.Outcome State Fault Refusal :=
  match i with
  | .sysStatus => Sys2Proof.Machine.execSysStatus s
  | .sysReset => Sys2Proof.Machine.execSysReset s
  | .bufWr off byte => Sys2Proof.Machine.execBufWr off byte s
  | .bufRd off => Sys2Proof.Machine.execBufRd off s
  | .xsReseed off len => Sys2Proof.Machine.execXsReseed off len s
  | .xsNext => Sys2Proof.Machine.execXsNext s
  | .xsFill off len => Sys2Proof.Machine.execXsFill off len s
  | .swLoadpat off len => Sys2Proof.Machine.execSwLoadpat off len s
  | .swPush k => Sys2Proof.Machine.execSwPush k s
  | .swMatch => Sys2Proof.Machine.execSwMatch s
  | .swClear => Sys2Proof.Machine.execSwClear s
  | .prbgSetup arg => Sys2Proof.Machine.execPrbgSetup arg s
  | .bnLoad gd off len => Sys2Proof.Machine.execBnLoad gd off len s
  | .bnStore gs off len => Sys2Proof.Machine.execBnStore gs off len s
  | .bnGcd gd gs1 gs2 => Sys2Proof.Machine.execBnGcd gd gs1 gs2 s
  | .bnModexp gd gs1 gs2 gs3 => Sys2Proof.Machine.execBnModexp gd gs1 gs2 gs3 s
  | .bnModinv gd gs1 gs2 => Sys2Proof.Machine.execBnModinv gd gs1 gs2 s
  | .prSieve gs1 k => Sys2Proof.Machine.execPrSieve gs1 k s
  | .prPptest gs1 => Sys2Proof.Machine.execPrPptest gs1 s
  | .prNextpp gd gs1 => Sys2Proof.Machine.execPrNextpp gd gs1 s
  | .prSearch gd gs1 => Sys2Proof.Machine.execPrSearch gd gs1 s
  | .drsaDerive off len => Sys2Proof.Machine.execDrsaDerive off len s
  | .keyGet gd sel => Sys2Proof.Machine.execKeyGet gd sel s

end Sys2Proof.Machine
end

