-- ==== Sys2Proof/Machine/Port.lean ====
section
/-! DEFINITION. The exchange between host and block (60_exceptions.md R320): the levels of the pins, hard reset, taking a
packet, decoding and running it. Step.lean only calls what stands here. -/

namespace Sys2Proof.Machine

/-- The host drives the next levels of its script; where the script is empty the levels hold (10_state.md R43, R45). -/
def State.tick (s : State) : State := { s with pins := s.script.headD s.pins, script := s.script.tail }

/-- Hard reset: every state element to its reset value, no response, the block idle; enabled in every state
(70_reset_and_hazards.md R326). -/
def State.hardReset (s : State) : State := s.resetBlock

/-- The block takes the next packet (R320 step 2). The host has taken the last response by then (step 5), so the port is
empty (log entry 5). -/
def State.accept (s : State) (rest : List Packet) : State := { s with packets := rest, response := none }

/-- Decode a packet and run it; a packet that is not a command is answered E_ILLEGAL before any other check
(R294 (1), R287). -/
def runPacket (p : Packet) (s : State) : Result :=
  match decode p with
  | .error _ => .next (s.respond .eIllegal 0#32)
  | .ok i => exec i s

/-- The transition of an idle block: it waits where the host sends nothing, else it takes and runs one packet.
The levels move on after it as after every transition, so hard reset can come at any transition (R326). -/
def State.idleStep (s : State) : Result :=
  match s.packets with
  | [] => .next s.tick
  | p :: rest =>
    match runPacket p (s.accept rest) with
    | .next t => .next t.tick
    | .fault f => .fault f
    | .refused r => .refused r

/-- One transition of the block (42_prbg_setup.md R174): hard reset wins over everything (R302 a). -/
def State.blockStep (s : State) : Result :=
  if s.pins.hardReset then .next s.hardReset.tick
  else
    match s.phase with
    | .idle => s.idleStep
    | .sampling => .next s.sampleAndStep.tick
    | .drawing => .next s.reseedAndNext.tick

/-- The block idle, hard reset low, and a packet first among those the host sends: the next transition takes it. -/
def State.offerFirst (s : State) (p : Packet) : State :=
  { s with packets := p :: s.packets, phase := .idle, pins := { s.pins with hardReset := false } }

end Sys2Proof.Machine
end

