-- ==== Sys2Proof/Machine/Step.lean ====
section
/-! DEFINITION. The step, and where it finds its next command. -/

namespace Sys2Proof.Machine

/-- One transition of the block. -/
def step : State → Host.Outcome State Fault Refusal := State.blockStep

/-- The state in which the very next step takes the packet of an opcode-table row's bits (log entry 6): the host sends it
first, the block is idle and hard reset is low. -/
def State.withFetchWord (s : State) (nbits w : Nat) : State := s.offerFirst (tablePacket nbits w)

end Sys2Proof.Machine
end

