-- ==== Sys2Proof/Machine/Pseudo.lean ====
section
/-! DEFINITION. What the spec builds from commands and gives no encoding of its own: the pseudo-commands (30_encoding.md
R103), the host procedure PRBG.NEW with the confusion-pattern slice (42_prbg_setup.md R163, R166), and the text form of
a command (30_encoding.md R101). SHA-256 and PBKDF2 are the host's black boxes (00_scope.md R6): their results are
arguments here. -/

namespace Sys2Proof.Machine

/-- `PRBG.NEXT` (R103). -/
def prbgNext : List Instr := [.xsNext]

/-- `PRBG.RESEED off, len` (R103). -/
def prbgReseed (off len : Off) : List Instr := [.xsReseed off len]

/-- `KEY.PUBLIC ga, gb` (R103). -/
def keyPublic (ga gb : Reg) : List Instr := [.keyGet ga .pubN, .keyGet gb .pubE]

/-- `KEY.PRIVATE ga, gb, gc` (R103). -/
def keyPrivate (ga gb gc : Reg) : List Instr := [.keyGet ga .privD, .keyGet gb .privP, .keyGet gc .privQ]

/-- `BUF.WRITE off, b0 b1 ... b(n-1)`: one BUF.WR for each byte, at rising offsets (R103). The spec does not say what the
pseudo-command does where off + i passes 1023, which no packet can name (R94): the model adds in 10 bits, so the offset
wraps to 0 (DESIGN CHOICE, log entry 26). -/
def bufWrite (off : Off) : List Byte → List Instr
  | [] => []
  | b :: bytes => .bufWr off b :: bufWrite (off + 1#10) bytes

/-- The start index of the pattern in the 32-byte digest: the sum of its bytes modulo 32 - L (R163). -/
def patternIndex (digest : List Byte) (len : Nat) : Nat :=
  (digest.map fun b => b.toNat).sum % (32 - len)

/-- The confusion pattern: the L-byte slice of the digest from that index (R163). -/
def confusionPattern (digest : List Byte) (len : Nat) : List Byte :=
  (digest.drop (patternIndex digest len)).take len

/-- `PRBG.NEW`: the commands the host sends, or none, which is the host's configuration error (R166). `key` is the 64-byte
PBKDF2 result, `digest` the 32-byte SHA-256 digest, `len` the confusion string's length; `a` and `b` are the host's
choice of offsets; a range that passes offset 1023 wraps to 0 as in `bufWrite` (DESIGN CHOICE, log entry 26). -/
def prbgNew (key digest : List Byte) (len iterations : Nat) (a b : Off) : Option (List Instr) :=
  if len < 1 ∨ Config.maxPattern < len ∨ iterations < 1 then none
  else
    some (bufWrite a key ++ [.xsReseed a 64#10] ++ bufWrite b (confusionPattern digest len) ++
      [.swLoadpat b (BitVec.ofNat 10 len)])

/-- A register in text, `g0` to `g7` (R101). -/
def regText (r : Reg) : String := "g" ++ toString r.val

/-- A key selector in text (R101). -/
def selText : KeySel → String
  | .pubN => "PUB.N"
  | .pubE => "PUB.E"
  | .privD => "PRIV.D"
  | .privP => "PRIV.P"
  | .privQ => "PRIV.Q"

/-- The mnemonic of a command, as the table of R96 has it. -/
def mnemonic : Instr → String
  | .sysStatus => "SYS.STATUS"
  | .sysReset => "SYS.RESET"
  | .bufWr _ _ => "BUF.WR"
  | .bufRd _ => "BUF.RD"
  | .xsReseed _ _ => "XS.RESEED"
  | .xsNext => "XS.NEXT"
  | .xsFill _ _ => "XS.FILL"
  | .swLoadpat _ _ => "SW.LOADPAT"
  | .swPush _ => "SW.PUSH"
  | .swMatch => "SW.MATCH"
  | .swClear => "SW.CLEAR"
  | .prbgSetup _ => "PRBG.SETUP"
  | .bnLoad _ _ _ => "BN.LOAD"
  | .bnStore _ _ _ => "BN.STORE"
  | .bnGcd _ _ _ => "BN.GCD"
  | .bnModexp _ _ _ _ => "BN.MODEXP"
  | .bnModinv _ _ _ => "BN.MODINV"
  | .prSieve _ _ => "PR.SIEVE"
  | .prPptest _ => "PR.PPTEST"
  | .prNextpp _ _ => "PR.NEXTPP"
  | .prSearch _ _ => "PR.SEARCH"
  | .drsaDerive _ _ => "DRSA.DERIVE"
  | .keyGet _ _ => "KEY.GET"

/-- A command's operands in text, in the order of the "operands" column of R96. -/
def operandTexts : Instr → List String
  | .sysStatus => []
  | .sysReset => []
  | .bufWr off byte => [toString off.toNat, toString byte.toNat]
  | .bufRd off => [toString off.toNat]
  | .xsReseed off len => [toString off.toNat, toString len.toNat]
  | .xsNext => []
  | .xsFill off len => [toString off.toNat, toString len.toNat]
  | .swLoadpat off len => [toString off.toNat, toString len.toNat]
  | .swPush k => [toString k.toNat]
  | .swMatch => []
  | .swClear => []
  | .prbgSetup arg => [toString arg.toNat]
  | .bnLoad gd off len => [regText gd, toString off.toNat, toString len.toNat]
  | .bnStore gs off len => [regText gs, toString off.toNat, toString len.toNat]
  | .bnGcd gd a b => [regText gd, regText a, regText b]
  | .bnModexp gd a b c => [regText gd, regText a, regText b, regText c]
  | .bnModinv gd a b => [regText gd, regText a, regText b]
  | .prSieve a k => [regText a, toString k.toNat]
  | .prPptest a => [regText a]
  | .prNextpp gd a => [regText gd, regText a]
  | .prSearch gd a => [regText gd, regText a]
  | .drsaDerive off len => [toString off.toNat, toString len.toNat]
  | .keyGet gd sel => [regText gd, selText sel]

/-- The text form of a command: the mnemonic, a space, the operands separated by commas, numbers in decimal (R101). -/
def instrText (i : Instr) : String :=
  match operandTexts i with
  | [] => mnemonic i
  | ops => mnemonic i ++ " " ++ ", ".intercalate ops

end Sys2Proof.Machine
end

