-- ==== Sys2Proof/Safety.lean ====
section
/-! DEFINITION. The terms the claims use: the window and the pattern as byte lists (10_state.md R37), commands run one
after the other, the legal packets as the opcode map lists them (30_encoding.md R96, R98), and the invariants of the
state. Nothing here is used by the machine. -/

namespace Sys2Proof.Machine

/-! Views. -/

/-- The window as a list, oldest byte first (10_state.md R37). -/
def State.window (s : State) : List Byte := s.win.toList.take s.winLen.val

/-- The pattern as a list (10_state.md R35). -/
def State.pattern (s : State) : List Byte := s.pat.toList.take s.patLen.val

/-- The state with a response on the port. -/
def State.answered (s : State) (c : Code) (v : BitVec 32) : State :=
  { s with response := some { code := c.bits, val := v } }

/-- The unsigned big-endian value of the `len` bytes of BUF from `off` on, written as the sum of 00_scope.md R17. -/
def State.rangeValue (s : State) (off len : Nat) : Nat :=
  ((List.range len).map fun i => (memRead s.buf (off + i)).toNat * 256 ^ (len - 1 - i)).sum

/-- The 32-bit value of the last four of 64 bytes drawn from a generator state (42_prbg_setup.md R171). -/
def reseedWord (x : U64) : BitVec 32 :=
  xsOut (xsIter 61 x) ++ xsOut (xsIter 62 x) ++ xsOut (xsIter 63 x) ++ xsOut (xsIter 64 x)

/-- The pattern is the last bytes of the first `n` bytes of the stream from `x`: the match test of byte step `n` of an
inner loop that begins on an empty window (42_prbg_setup.md R170). -/
def matchesAfter (pattern : List Byte) (x : U64) (n : Nat) : Prop :=
  pattern.length ≤ n ∧ (xsBytes n x).drop (n - pattern.length) = pattern

/-- Byte step `n` is the first of the inner loop that matches (42_prbg_setup.md R168). -/
def firstMatch (pattern : List Byte) (x : U64) (n : Nat) : Prop :=
  matchesAfter pattern x n ∧ ∀ m, m < n → ¬matchesAfter pattern x m

/-- The generator states of the outer iterations of a setup: `ns` lists the byte steps of each, `y` is the state after the
last reseed (42_prbg_setup.md R168). -/
def setupTrace (pattern : List Byte) : U64 → List Nat → U64 → Prop
  | x, [], y => x = y
  | x, n :: ns, y =>
    firstMatch pattern x n ∧ setupTrace pattern ((reseedWord (xsIter n x)).setWidth 64) ns y

/-- A PRBG.SETUP at the first sampling point of an outer iteration, on an empty window, with a pattern, while the host
drives neither pin (42_prbg_setup.md R168, R169). -/
structure SetupReady (s : State) : Prop where
  atSampling : s.phase = .sampling
  noReset : s.pins.hardReset = false
  noCancel : s.pins.cancelReq = false
  levelsHold : s.script = []
  windowEmpty : s.winLen = 0
  patternLoaded : 0 < s.patLen.val

/-! The prime searches, as relations. -/

/-- `v` is the smallest probable prime at or above `n` (44_prime.md R226). -/
def leastProbablePrime (n v : Nat) : Prop :=
  n ≤ v ∧ ppt v = true ∧ ∀ x, n ≤ x → x < v → ppt x = false

/-- The single forward pass of 44_prime.md R229 over table entries, from a candidate to the result, every candidate below
2^W. -/
inductive ScanResult : List Nat → Nat → Nat → Prop where
  | done (c : Nat) : ScanResult [] c c
  | keep (sp : Nat) (ps : List Nat) (c r : Nat) : c % sp ≠ 0 → ScanResult ps c r → ScanResult (sp :: ps) c r
  | advance (sp : Nat) (ps : List Nat) (c c' r : Nat) : c % sp = 0 → leastProbablePrime (c + 1) c' →
      c' < Config.regLimit → ScanResult ps c' r → ScanResult (sp :: ps) c r

/-- `r` is what the single pass of 44_prime.md R229 gives from a start: the smallest probable prime at or above it, then
the scan of the whole table, every candidate below 2^W. -/
def SearchResult (start r : Nat) : Prop :=
  ∃ c, leastProbablePrime start c ∧ c < Config.regLimit ∧ ScanResult smallPrimes c r

/-- What one round of the probable-prime test asks of a base: it is 0, 1 or -1 modulo n, or its power to d is 1, or one of
the powers to d, 2d, 4d, ..., 2^(s-1) d is -1 (44_prime.md R222), written with exact powers. -/
def strongBase (n d s w : Nat) : Prop :=
  w % n ≤ 1 ∨ w % n = n - 1 ∨ (w % n) ^ d % n = 1 ∨ ∃ r, r < s ∧ (w % n) ^ (2 ^ r * d) % n = n - 1

/-! Commands one after the other. -/

/-- Run commands in order, each on the state the one before left (20_memory.md R72). -/
def runAll : List Instr → State → Result
  | [], s => .next s
  | i :: is, s =>
    match exec i s with
    | .next t => runAll is t
    | .fault f => .fault f
    | .refused r => .refused r

/-- `n` steps of the block. -/
def runSteps : Nat → State → Result
  | 0, s => .next s
  | n + 1, s =>
    match step s with
    | .next t => runSteps n t
    | .fault f => .fault f
    | .refused r => .refused r

/-- The commands by which a host stores `len` generator bytes itself: XS.NEXT, then BUF.WR of the byte it returned
(40_xorshift.md R122). Past offset 1023 the offset wraps to 0 (DESIGN CHOICE, log entry 26); the statement that uses it
rules such ranges out. -/
def fillByHand (off : Off) : Nat → U64 → List Instr
  | 0, _ => []
  | n + 1, x => .xsNext :: .bufWr off (xsOut (xsStep x)) :: fillByHand (off + 1#10) n (xsStep x)

/-! Legal packets, from the opcode map alone. -/

/-- A row of the opcode map of R96: the mnemonic, match and mask over the 32-bit command word, whether `arg` is free, and
the extra condition on the word's low byte. -/
structure OpcodeRow where
  name : String
  wordMatch : BitVec 32
  wordMask : BitVec 32
  argFree : Bool
  extra : Byte → Bool

/-- A row whose last column is empty. -/
def plainRow (name : String) (m k : BitVec 32) : OpcodeRow := ⟨name, m, k, false, fun _ => true⟩

/-- The opcode map of R96, row by row. -/
def opcodeMap : List OpcodeRow :=
  [plainRow "SYS.STATUS" 0x01000000#32 0xFFFFFFFF#32,
   plainRow "SYS.RESET" 0x02000000#32 0xFFFFFFFF#32,
   plainRow "BUF.WR" 0x08000000#32 0xFFF00300#32,
   plainRow "BUF.RD" 0x09000000#32 0xFFF003FF#32,
   plainRow "XS.RESEED" 0x10000000#32 0xFFF00000#32,
   plainRow "XS.NEXT" 0x11000000#32 0xFFFFFFFF#32,
   plainRow "XS.FILL" 0x12000000#32 0xFFF00000#32,
   plainRow "SW.LOADPAT" 0x20000000#32 0xFFF00000#32,
   plainRow "SW.PUSH" 0x21000000#32 0xFFFFFF00#32,
   plainRow "SW.MATCH" 0x22000000#32 0xFFFFFFFF#32,
   plainRow "SW.CLEAR" 0x23000000#32 0xFFFFFFFF#32,
   ⟨"PRBG.SETUP", 0x30000000#32, 0xFFFFFFFF#32, true, fun _ => true⟩] ++
  [plainRow "BN.LOAD" 0x40000000#32 0xFF800000#32,
   plainRow "BN.STORE" 0x41000000#32 0xFF800000#32,
   plainRow "BN.GCD" 0x42000000#32 0xFF888FFF#32,
   plainRow "BN.MODEXP" 0x43000000#32 0xFF8888FF#32,
   plainRow "BN.MODINV" 0x44000000#32 0xFF888FFF#32,
   ⟨"PR.SIEVE", 0x50000000#32, 0xFFF8FF00#32, false, fun k => decide (k.toNat ≤ 168)⟩] ++
  [plainRow "PR.PPTEST" 0x51000000#32 0xFFF8FFFF#32,
   plainRow "PR.NEXTPP" 0x52000000#32 0xFF88FFFF#32,
   plainRow "PR.SEARCH" 0x53000000#32 0xFF88FFFF#32,
   plainRow "DRSA.DERIVE" 0x60000000#32 0xFFF00000#32,
   ⟨"KEY.GET", 0x61000000#32, 0xFF8FFF7C#32, false, fun k => [0x00#8, 0x01#8, 0x80#8, 0x81#8, 0x82#8].contains k⟩]

/-- A packet selects a row iff its word matches under the mask, `arg` is 0 where the row asks it, and the extra condition
holds (R96). -/
def OpcodeRow.selects (r : OpcodeRow) (p : Packet) : Bool :=
  decide (p.extractLsb' 0 32 &&& r.wordMask = r.wordMatch) && (r.argFree || decide (p.extractLsb' 32 32 = 0#32)) &&
    r.extra (p.extractLsb' 0 8)

/-! Which command can give which code. -/

/-- The table of 60_exceptions.md R297, with OK, for the codes a command gives at once; CANCELLED at once is a PRBG.SETUP
accepted while `cancel_req` is 1. E_ILLEGAL, which no command gives, is left out. -/
def possibleCodes : Instr → List Code
  | .sysStatus => [.ok]
  | .sysReset => [.ok]
  | .bufWr _ _ => [.ok, .eDiscard, .eRange]
  | .bufRd _ => [.ok, .eDiscard, .eRange]
  | .xsReseed _ _ => [.ok, .eDiscard, .eConfig, .eRange]
  | .xsNext => [.ok, .eDiscard, .eConfig]
  | .xsFill _ _ => [.ok, .eDiscard, .eConfig, .eRange]
  | .swLoadpat _ _ => [.ok, .eDiscard, .eConfig, .eRange]
  | .swPush _ => [.ok, .eDiscard, .eConfig]
  | .swMatch => [.ok, .eDiscard, .eConfig]
  | .swClear => [.ok, .eDiscard, .eConfig]
  | .prbgSetup _ => [.eDiscard, .eConfig, .cancelled]
  | .bnLoad _ _ _ => [.ok, .eDiscard, .eRange, .eOverflow]
  | .bnStore _ _ _ => [.ok, .eDiscard, .eRange, .eOverflow]
  | .bnGcd _ _ _ => [.ok, .eDiscard]
  | .bnModexp _ _ _ _ => [.ok, .eDiscard, .eDomain]
  | .bnModinv _ _ _ => [.ok, .eDiscard, .eDomain]
  | .prSieve _ _ => [.ok, .eDiscard]
  | .prPptest _ => [.ok, .eDiscard]
  | .prNextpp _ _ => [.ok, .eDiscard, .eOverflow]
  | .prSearch _ _ => [.ok, .eDiscard, .eOverflow]
  | .drsaDerive _ _ => [.ok, .eDiscard, .eRange, .eOverflow, .eDerive]
  | .keyGet _ _ => [.ok, .eDiscard, .eNokey]

/-! Invariants of the state. -/

/-- Every big register holds a storable value (10_state.md R21, R22, R38). -/
structure RegistersStorable (s : State) : Prop where
  general : ∀ r : Reg, s.reg r < Config.regLimit
  kp : s.kp < Config.regLimit
  kq : s.kq < Config.regLimit
  kn : s.kn < Config.regLimit
  kphi : s.kphi < Config.regLimit
  kd : s.kd < Config.regLimit

/-- PATVALID is 1 exactly where there is a pattern, the window is no longer than its capacity, and the entries past the
two lengths are 0 (10_state.md R31, R35, R37). -/
structure WindowSound (s : State) : Prop where
  validIffLength : s.patValid = true ↔ 0 < s.patLen.val
  withinCapacity : s.winLen ≤ s.patLen
  patRest : ∀ i : Fin 31, s.patLen.val ≤ i.val → s.pat[i.val] = 0#8
  winRest : ∀ i : Fin 31, s.winLen.val ≤ i.val → s.win[i.val] = 0#8

/-- What holds of a committed key (45_drsa.md R258 a to h). -/
structure KeySound (s : State) : Prop where
  fromSeed : s.keyValid = true → ∃ a b, SearchResult a s.kp ∧ SearchResult b s.kq
  probablePrimes : s.keyValid = true → ppt s.kp = true ∧ ppt s.kq = true
  large : s.keyValid = true → 1009 ≤ s.kp ∧ 1009 ≤ s.kq
  modulus : s.keyValid = true → s.kn = s.kp * s.kq
  totient : s.keyValid = true → s.kphi = (s.kp - 1) * (s.kq - 1)
  exponentSmall : s.keyValid = true → 65537 < s.kphi
  coprime : s.keyValid = true → Nat.gcd 65537 s.kphi = 1
  inverse : s.keyValid = true → 0 < s.kd ∧ s.kd < s.kphi ∧ s.kd * 65537 % s.kphi = 1

/-- Inside PRBG.SETUP the generator is seeded, a pattern is loaded, ITER_REM is not 0, the block is not in the must-discard
state and no response is on the port; the draws come right after a match; outside PRBG.SETUP ITER_REM is 0 unless the
setup was cancelled (10_state.md R29, 42_prbg_setup.md R168, R174). -/
structure SequencerSound (s : State) : Prop where
  runningReady : s.phase ≠ .idle → s.seeded = true ∧ s.patValid = true ∧ s.iterRem ≠ 0#32
  runningOpen : s.phase ≠ .idle → s.discard = false ∧ s.response = none
  drawingMatched : s.phase = .drawing → s.swMatches = true
  idleCounter : s.phase = .idle → s.discard = false → s.iterRem = 0#32

/-- A response carries one of the ten codes, and the value 0 unless the code is OK (60_exceptions.md R286). -/
def ResponseSound (s : State) : Prop :=
  ∀ r, s.response = some r → (∃ c : Code, r.code = c.bits) ∧ (r.code ≠ Code.bits .ok → r.val = 0#32)

end Sys2Proof.Machine
end

