-- ==== Sys2Proof/Certificates/Slice0/Obligations.lean ====
section
/-! DEFINITION. The statements for the provers. Each docstring is the statement in words; OBLIGATIONS.json names the rules
it rests on. -/

open Sys2Proof Sys2Proof.Machine

/-- For every well-formed command, with every operand at every value its fields admit, decoding its encoded packet gives
that command. (30_encoding.md sections 1 to 6 (R85, R90, R91, R92, R94, R96, R102)) -/
def Obligations.DecodeEncodeRoundTrip : Prop :=
  ∀ i : Instr, i.wellFormed = true → decode (encode i) = .ok i

/-- If a packet decodes to a command, the command is well formed and its encoded packet is that packet; so no two packets
decode to one command and no bit is ignored. (30_encoding.md section 5 (R98, R99)) -/
def Obligations.EncodeDecodeRoundTrip : Prop :=
  ∀ (p : Packet) (i : Instr), decode p = .ok i → i.wellFormed = true ∧ encode i = p

/-- For every packet and every mnemonic: the packet decodes to a command of that mnemonic iff some row of the opcode map
with that mnemonic has (word AND mask) = match, arg = 0 unless the row leaves arg free, and its extra condition.
(30_encoding.md section 4 (R96); 30_encoding.md section 5 (R98)) -/
def Obligations.LegalPacketsAreTheOpcodeMap : Prop :=
  ∀ (p : Packet) (name : String),
    (∃ i, decode p = .ok i ∧ mnemonic i = name) ↔ ∃ r, r ∈ opcodeMap ∧ r.name = name ∧ r.selects p = true

/-- The packets of PRBG.SETUP 2, BN.MODEXP g3 g0 g1 g2, BN.LOAD g1 4 2, BUF.WR 17 0xC5 and BUF.RD 17, as the spec writes
them, decode to those commands. (30_encoding.md section 6 (R102); 46_system.md section 3 (R274, R275)) -/
def Obligations.WorkedPacketsDecode : Prop :=
  decode 0x0000000230000000#64 = .ok (.prbgSetup 2#32) ∧
  decode 0x0000000043301200#64 = .ok (.bnModexp 3 0 1 2) ∧
  decode 0x0000000040101002#64 = .ok (.bnLoad 1 4#10 2#10) ∧
  decode 0x00000000080044C5#64 = .ok (.bufWr 17#10 0xC5#8) ∧
  decode 0x0000000009004400#64 = .ok (.bufRd 17#10)

/-- In the reset state XS, PATLEN, WINLEN, ITER_REM, the four flags, every entry of PAT and WIN, every general and key
register and every byte of BUF are 0, STATUS reads 0, the block is idle and no response is on the port. (10_state.md
section 11 (R44); 70_reset_and_hazards.md section 1 (R326, R327)) -/
def Obligations.ResetStateValues : Prop :=
  let z := State.reset
  (z.xs = 0#64 ∧ z.patLen = 0 ∧ z.winLen = 0 ∧ z.iterRem = 0#32) ∧
  (z.seeded = false ∧ z.patValid = false ∧ z.keyValid = false ∧ z.discard = false) ∧
  (∀ i : Fin 31, z.pat[i.val] = 0#8 ∧ z.win[i.val] = 0#8) ∧
  (∀ r : Reg, z.reg r = 0) ∧ (z.kp = 0 ∧ z.kq = 0 ∧ z.kn = 0 ∧ z.kphi = 0 ∧ z.kd = 0) ∧
  (∀ a, memRead z.buf a = 0#8) ∧ z.statusWord = 0#32 ∧ z.busy = false ∧ z.response = none

/-- In every state SYS.RESET gives the reset state with response (OK, 0), and a step with hard reset asserted gives the
reset state with no response, whatever the block was doing. The inputs (packets to come, levels) are the host's and
are kept; that they are fields of the state is the model's choice, log entry 2. (46_system.md section 2 (R272, R273);
70_reset_and_hazards.md section 1 (R325, R326)) -/
def Obligations.BothResetsLeaveTheResetState : Prop :=
  (∀ s : State, exec .sysReset s =
    .next ({ State.reset with packets := s.packets, pins := s.pins, script := s.script }.answered .ok 0#32)) ∧
  ∀ s : State, s.pins.hardReset = true → step s =
    .next { State.reset with packets := s.packets, pins := s.script.headD s.pins, script := s.script.tail }

/-- When hard reset is low, the block is idle and the next packet decodes to a command, the step is the meaning of that
command in the state with the packet taken and the response port empty. After it the host's next levels come, after a
PRBG.SETUP that has begun too, so that hard reset or cancel_req can be high at its first sampling point. The empty
port and the moment the levels change are the model's choice, log entries 2 and 5. (60_exceptions.md section 7 (R320);
30_encoding.md section 1 (R86)) -/
def Obligations.StepRunsTheDecodedCommand : Prop :=
  ∀ (s : State) (p : Packet) (rest : List Packet) (i : Instr), s.pins.hardReset = false → s.phase = .idle →
    s.packets = p :: rest → decode p = .ok i →
    step s =
      match exec i { s with packets := rest, response := none } with
      | .next t => .next { t with pins := t.script.headD t.pins, script := t.script.tail }
      | .fault f => .fault f
      | .refused r => .refused r

/-- When an idle block takes a packet the decoder rejects, the response is (E_ILLEGAL, 0), whatever the flags, and no
state of the block changes. That the packet leaves the list of those to come, that the response replaces what was on
the port and that the host's levels move on to the next of the script is the model's choice, log entries 2 and 5.
(60_exceptions.md section 1 (R287)) -/
def Obligations.IllegalPacketIsAnsweredEIllegal : Prop :=
  ∀ (s : State) (p : Packet) (rest : List Packet) (e : IllegalPacket), s.pins.hardReset = false → s.phase = .idle →
    s.packets = p :: rest → decode p = .error e →
    step s = .next { s with packets := rest, response := some { code := 0x01#8, val := 0#32 },
                            pins := s.script.headD s.pins, script := s.script.tail }

/-- No command and no step of the machine ends in a fault or a refusal: every packet in every state has an effect or a
response code. That a step of an idle block to which nothing is offered answers a next state too, and that the model
has no fault, is the model's choice, log entries 20 and 17: the spec describes no transition there and its rules speak
of packets. (30_encoding.md section 5 (R99); 60_exceptions.md section 1 (R285)) -/
def Obligations.MachineNeverStops : Prop :=
  (∀ (i : Instr) (s : State), ∃ t, exec i s = .next t) ∧ ∀ s : State, ∃ t, step s = .next t

/-- If running a packet answers a code other than OK and CANCELLED, the new state is the old one with that response on the
port, and the response value is 0. (R296) -/
def Obligations.ErrorsChangeNothing : Prop :=
  ∀ (p : Packet) (s t : State) (c : Code) (v : BitVec 32), runPacket p s = .next t →
    t.response = some { code := c.bits, val := v } → c ≠ .ok → c ≠ .cancelled → t = s.answered c 0#32

/-- While DISCARD = 1 every command other than SYS.RESET and SYS.STATUS answers (E_DISCARD, 0) and does nothing else;
while DISCARD = 0 and KEYVALID = 0, KEY.GET answers (E_NOKEY, 0) for every selector, PUB.E included. (R295) -/
def Obligations.DiscardAndNokeyAnswers : Prop :=
  (∀ (i : Instr) (s : State), s.discard = true → i ≠ .sysReset → i ≠ .sysStatus →
    exec i s = .next (s.answered .eDiscard 0#32)) ∧
  ∀ (gd : Reg) (sel : KeySel) (s : State), s.discard = false → s.keyValid = false →
    exec (.keyGet gd sel) s = .next (s.answered .eNokey 0#32)

/-- Every command's new state carries a response whose code the table allows for that command, or it is a PRBG.SETUP that
has begun and no response is on the port. That CANCELLED can come at once, from a PRBG.SETUP accepted while cancel_req
is 1, is the model's choice, log entry 4. The table is an inference the spec marks as its own: [derived: collected
from the command rules of files 40 to 46]. (60_exceptions.md section 2, the table of commands and codes) -/
def Obligations.CodesEachCommandGives : Prop :=
  ∀ (i : Instr) (s t : State), exec i s = .next t →
    (∃ c v, c ∈ possibleCodes i ∧ t.response = some { code := c.bits, val := v }) ∨
    (∃ arg, i = .prbgSetup arg) ∧ t.phase = .sampling ∧ t.response = none

/-- OK is 0x00, E_ILLEGAL 0x01, E_CONFIG 0x02, E_DERIVE 0x03, CANCELLED 0x04, E_RANGE 0x05, E_OVERFLOW 0x06, E_DOMAIN
0x07, E_DISCARD 0x08, E_NOKEY 0x09. (60_exceptions.md section 1 (R286)) -/
def Obligations.ResponseCodeNumbers : Prop :=
  [Code.ok, .eIllegal, .eConfig, .eDerive, .cancelled, .eRange, .eOverflow, .eDomain, .eDiscard, .eNokey].map Code.bits =
    [0x00#8, 0x01#8, 0x02#8, 0x03#8, 0x04#8, 0x05#8, 0x06#8, 0x07#8, 0x08#8, 0x09#8]

/-- SEEDED is 0 after reset; an XS.RESEED answered OK leaves it 1; a step that clears it is a hard reset or takes a
SYS.RESET; while it is 0 (and DISCARD is 0) XS.NEXT, XS.FILL and PRBG.SETUP answer (E_CONFIG, 0) and change nothing.
(R27) -/
def Obligations.SeededFlag : Prop :=
  State.reset.seeded = false ∧
  (∀ (off len : Off) (s t : State) (v : BitVec 32), exec (.xsReseed off len) s = .next t →
    t.response = some { code := Code.bits .ok, val := v } → t.seeded = true) ∧
  (∀ s t : State, step s = .next t → s.seeded = true → t.seeded = false →
    s.pins.hardReset = true ∨ s.phase = .idle ∧ ∃ p rest, s.packets = p :: rest ∧ decode p = .ok .sysReset) ∧
  ∀ (s : State) (off len : Off) (arg : BitVec 32), s.discard = false → s.seeded = false →
    exec .xsNext s = .next (s.answered .eConfig 0#32) ∧
    exec (.xsFill off len) s = .next (s.answered .eConfig 0#32) ∧
    exec (.prbgSetup arg) s = .next (s.answered .eConfig 0#32)

/-- PATVALID is 0 after reset; a SW.LOADPAT answered OK leaves it 1; a step that clears it is a hard reset or takes a
SYS.RESET; while it is 0 the window has capacity 0 (in every state with the window invariant) and (DISCARD being 0)
SW.PUSH, SW.MATCH, SW.CLEAR and PRBG.SETUP answer (E_CONFIG, 0) and change nothing. (R31) -/
def Obligations.PatvalidFlag : Prop :=
  State.reset.patValid = false ∧
  (∀ (off len : Off) (s t : State) (v : BitVec 32), exec (.swLoadpat off len) s = .next t →
    t.response = some { code := Code.bits .ok, val := v } → t.patValid = true) ∧
  (∀ s t : State, step s = .next t → s.patValid = true → t.patValid = false →
    s.pins.hardReset = true ∨ s.phase = .idle ∧ ∃ p rest, s.packets = p :: rest ∧ decode p = .ok .sysReset) ∧
  (∀ s : State, WindowSound s → s.patValid = false → s.patLen = 0) ∧
  ∀ (s : State) (k : Byte) (arg : BitVec 32), s.discard = false → s.patValid = false →
    exec (.swPush k) s = .next (s.answered .eConfig 0#32) ∧
    exec .swMatch s = .next (s.answered .eConfig 0#32) ∧
    exec .swClear s = .next (s.answered .eConfig 0#32) ∧
    exec (.prbgSetup arg) s = .next (s.answered .eConfig 0#32)

/-- KEYVALID is 0 after reset; a DRSA.DERIVE answered OK leaves it 1; a step that clears it is a hard reset or takes a
SYS.RESET; a DRSA.DERIVE answered anything else leaves it and the key registers as they were; while it is 0 (and
DISCARD is 0) KEY.GET answers (E_NOKEY, 0). (R32) -/
def Obligations.KeyvalidFlag : Prop :=
  State.reset.keyValid = false ∧
  (∀ (off len : Off) (s t : State) (v : BitVec 32), exec (.drsaDerive off len) s = .next t →
    t.response = some { code := Code.bits .ok, val := v } → t.keyValid = true) ∧
  (∀ s t : State, step s = .next t → s.keyValid = true → t.keyValid = false →
    s.pins.hardReset = true ∨ s.phase = .idle ∧ ∃ p rest, s.packets = p :: rest ∧ decode p = .ok .sysReset) ∧
  (∀ (off len : Off) (s t : State) (c : Code) (v : BitVec 32), exec (.drsaDerive off len) s = .next t →
    t.response = some { code := c.bits, val := v } → c ≠ .ok →
    t.keyValid = s.keyValid ∧ t.kp = s.kp ∧ t.kq = s.kq ∧ t.kn = s.kn ∧ t.kphi = s.kphi ∧ t.kd = s.kd) ∧
  ∀ (gd : Reg) (sel : KeySel) (s : State), s.discard = false → s.keyValid = false →
    exec (.keyGet gd sel) s = .next (s.answered .eNokey 0#32)

/-- DISCARD is 0 after reset; a step sets it iff cancel_req is 1, hard reset is low, and the block is at a sampling point
of PRBG.SETUP or accepts a PRBG.SETUP that passes its checks; a step that clears it is a hard reset or takes a
SYS.RESET; while it is 1 every command except SYS.RESET and SYS.STATUS answers (E_DISCARD, 0). That a PRBG.SETUP
accepted while cancel_req is 1 is cancelled in the very step that accepts it is the model's choice, log entry 4.
(10_state.md section 5 (R33); 42_prbg_setup.md section 3 (R168, R172); 60_exceptions.md sections 2 and 3 (R295, R302)) -/
def Obligations.DiscardFlag : Prop :=
  State.reset.discard = false ∧
  (∀ s t : State, step s = .next t → s.discard = false →
    (t.discard = true ↔ s.pins.hardReset = false ∧ s.pins.cancelReq = true ∧
      (s.phase = .sampling ∨ s.phase = .idle ∧ s.seeded = true ∧ s.patValid = true ∧
        ∃ p rest arg, s.packets = p :: rest ∧ decode p = .ok (.prbgSetup arg) ∧ arg ≠ 0#32))) ∧
  (∀ s t : State, step s = .next t → s.discard = true → t.discard = false →
    s.pins.hardReset = true ∨ s.phase = .idle ∧ ∃ p rest, s.packets = p :: rest ∧ decode p = .ok .sysReset) ∧
  ∀ (i : Instr) (s : State), s.discard = true → i ≠ .sysReset → i ≠ .sysStatus →
    exec i s = .next (s.answered .eDiscard 0#32)

/-- In every state SYS.STATUS answers OK with a word whose bits 0 to 3 are SEEDED, PATVALID, KEYVALID and DISCARD, whose
bits 12:8 are PATLEN and 20:16 WINLEN, whose bits 7:4, 15:13 and 31:21 are 0, and nothing else changes. (46_system.md
section 1 (R271); 10_state.md section 6 (R34)) -/
def Obligations.StatusWordLayout : Prop :=
  ∀ s : State, ∃ w : BitVec 32, exec .sysStatus s = .next (s.answered .ok w) ∧
    w.getLsbD 0 = s.seeded ∧ w.getLsbD 1 = s.patValid ∧ w.getLsbD 2 = s.keyValid ∧ w.getLsbD 3 = s.discard ∧
    w.extractLsb' 4 4 = 0#4 ∧ (w.extractLsb' 8 5).toNat = s.patLen.val ∧ w.extractLsb' 13 3 = 0#3 ∧
    (w.extractLsb' 16 5).toNat = s.winLen.val ∧ w.extractLsb' 21 11 = 0#11

/-- With DISCARD = 0, BUF.WR answers OK; after it reading BUF gives the byte at its offset and the old byte at every other
address, and no other state changes. BUF.RD answers OK with the cell's byte in val[7:0], and no state changes.
(46_system.md section 3 (R274, R275); 20_memory.md section 3 (R67)) -/
def Obligations.BufWriteAndRead : Prop :=
  ∀ (off : Off) (byte : Byte) (s : State), s.discard = false →
    (∃ m : Memory, exec (.bufWr off byte) s = .next ({ s with buf := m }.answered .ok 0#32) ∧
      ∀ a, memRead m a = if a = off.toNat then byte else memRead s.buf a) ∧
    exec (.bufRd off) s = .next (s.answered .ok ((memRead s.buf off.toNat).setWidth 32))

/-- With DISCARD = 0, a range of at least one byte inside BUF: XS.RESEED answers OK, XS becomes the sum of the range's
bytes times powers of 256 (first byte most significant) modulo 2^32, SEEDED becomes 1, nothing else changes. For four
bytes or more the new XS is the last four bytes below 32 zero bits (an inference the spec marks [derived: from rule
R118]). (40_xorshift.md section 2 (R118); 00_scope.md section 6 (R17)) -/
def Obligations.ReseedLoadsBigEndianValue : Prop :=
  ∀ (off len : Off) (s : State), s.discard = false → len ≠ 0#10 → off.toNat + len.toNat ≤ 1024 →
    ∃ x : U64, exec (.xsReseed off len) s = .next ({ s with xs := x, seeded := true }.answered .ok 0#32) ∧
      x.toNat = s.rangeValue off.toNat len.toNat % 2 ^ 32 ∧
      (4 ≤ len.toNat → x = 0#32 ++ memRead s.buf (off.toNat + len.toNat - 4) ++
        memRead s.buf (off.toNat + len.toNat - 3) ++ memRead s.buf (off.toNat + len.toNat - 2) ++
        memRead s.buf (off.toNat + len.toNat - 1))

/-- With DISCARD = 0 and SEEDED = 1, XS.NEXT answers OK: XS becomes c, where a = s xor (s shifted left 13), b = a xor
(floor of the signed reading of a over 2^17, modulo 2^64), c = b xor (b shifted left 5); val is c[7:0]; nothing else
changes. (40_xorshift.md sections 1 and 3 (R116, R117, R120); 00_scope.md section 6 (R15)) -/
def Obligations.NextStepsTheGenerator : Prop :=
  ∀ s : State, s.discard = false → s.seeded = true →
    let a : U64 := s.xs ^^^ (s.xs <<< 13)
    let b : U64 := a ^^^ BitVec.ofInt 64 (Int.fdiv a.toInt (2 ^ 17))
    let c : U64 := b ^^^ (b <<< 5)
    exec .xsNext s = .next ({ s with xs := c }.answered .ok ((c.extractLsb' 0 8).setWidth 32))

/-- With DISCARD = 0, SEEDED = 1 and the range inside BUF, XS.FILL answers OK: XS is the state after len steps; the byte
at off + i is the low byte of the state after i + 1 steps; every byte outside the range, and all other state, is
unchanged. len = 0 is covered. (40_xorshift.md section 4 (R122); 20_memory.md section 3 (R67)) -/
def Obligations.FillStoresTheStream : Prop :=
  ∀ (off len : Off) (s : State), s.discard = false → s.seeded = true → off.toNat + len.toNat ≤ 1024 →
    ∃ m : Memory,
      exec (.xsFill off len) s = .next ({ s with xs := xsStep^[len.toNat] s.xs, buf := m }.answered .ok 0#32) ∧
      ∀ a, memRead m a =
        if off.toNat ≤ a ∧ a < off.toNat + len.toNat then (xsStep^[a - off.toNat + 1] s.xs).setWidth 8
        else memRead s.buf a

/-- With DISCARD = 0, SEEDED = 1 and the range inside BUF, the sequence XS.NEXT, BUF.WR of the byte it returned, repeated
len times at rising offsets, ends in the same state as the one XS.FILL, but for the response on the port.
(40_xorshift.md section 4 (R122)) -/
def Obligations.FillEqualsNextAndWrite : Prop :=
  ∀ (off len : Off) (s : State), s.discard = false → s.seeded = true → off.toNat + len.toNat ≤ 1024 →
    ∃ t u, exec (.xsFill off len) s = .next t ∧ runAll (fillByHand off len.toNat s.xs) s = .next u ∧
      { t with response := none } = { u with response := none }

/-- For every a, the second line of the step gives the same value for a and for a with all bits inverted; the step gives 0
from 0 and from 0xFFF0007FFC001FFF and from no other state. Both are inferences the spec marks [derived: from rule
R116]. (40_xorshift.md section 1 (R116); 00_scope.md section 6 (R15)) -/
def Obligations.GeneratorStepCollisions : Prop :=
  (∀ a : U64, xor64 (~~~a) (sar64 (~~~a) 17) = xor64 a (sar64 a 17)) ∧
  ∀ x : U64, xsStep x = 0#64 ↔ x = 0#64 ∨ x = 0xFFF0007FFC001FFF#64

/-- With DISCARD = 0, 1 ≤ len ≤ 31 and the range inside BUF, SW.LOADPAT answers OK: PAT[i] is the byte at off + i below
len and 0 from len on, PATLEN = len, PATVALID = 1, WIN all 0, WINLEN 0, nothing else changes. (41_window.md section 2
(R136)) -/
def Obligations.LoadPatternCopiesRange : Prop :=
  ∀ (off len : Off) (s : State), s.discard = false → 1 ≤ len.toNat → len.toNat ≤ 31 →
    off.toNat + len.toNat ≤ 1024 →
    ∃ (p : Vector Byte 31) (n : Fin 32),
      exec (.swLoadpat off len) s =
        .next ({ s with pat := p, patLen := n, patValid := true, win := Vector.replicate 31 0#8,
                        winLen := 0 }.answered .ok 0#32) ∧
      n.val = len.toNat ∧
      ∀ i : Fin 31, p[i.val] = if i.val < len.toNat then memRead s.buf (off.toNat + i.val) else 0#8

/-- With DISCARD = 0, PATVALID = 1 and the window invariant, SW.PUSH answers OK; as lists, oldest first, the new window is
win ++ [k] if it was not full and tail(win) ++ [k] if it was; entries past the new length are 0; nothing but WIN and
WINLEN changes. (41_window.md section 3 (R137, R138)) -/
def Obligations.PushAppendsOrEvicts : Prop :=
  ∀ (k : Byte) (s : State), s.discard = false → s.patValid = true → WindowSound s →
    ∃ (w : Vector Byte 31) (n : Fin 32),
      exec (.swPush k) s = .next ({ s with win := w, winLen := n }.answered .ok 0#32) ∧
      w.toList.take n.val =
        (if s.window.length < s.patLen.val then s.window ++ [k] else s.window.tail ++ [k]) ∧
      n.val = min (s.winLen.val + 1) s.patLen.val ∧ ∀ i : Fin 31, n.val ≤ i.val → w[i.val] = 0#8

/-- With DISCARD = 0, a pattern loaded and the window empty, a sequence of SW.PUSH commands leaves as window the last
PATLEN bytes pushed (all of them if there are fewer), in push order, and changes nothing but WIN, WINLEN and the
response. The FIFO property is an inference the spec marks [derived: by induction on n from rule R137]. (41_window.md
section 3 (R137, R138); 41_window.md section 6) -/
def Obligations.PushesKeepTheLastBytes : Prop :=
  ∀ (bytes : List Byte) (s : State), s.discard = false → s.patValid = true → 0 < s.patLen.val → s.winLen = 0 →
    ∃ t, runAll (bytes.map fun b => Instr.swPush b) s = .next t ∧
      t.window = bytes.drop (bytes.length - s.patLen.val) ∧ t.winLen.val = min bytes.length s.patLen.val ∧
      { t with win := s.win, winLen := s.winLen, response := s.response } = s

/-- With DISCARD = 0 and PATVALID = 1, SW.MATCH answers OK with val 1 if WINLEN = PATLEN and the window's bytes are the
pattern's in order, else val 0, and no state changes; SW.CLEAR answers OK with WIN all 0 and WINLEN 0 and nothing else
changed. (41_window.md sections 4 and 5 (R139, R140, R142)) -/
def Obligations.MatchAndClear : Prop :=
  ∀ s : State, s.discard = false → s.patValid = true →
    exec .swMatch s =
      .next (s.answered .ok (if s.winLen = s.patLen ∧ s.window = s.pattern then 1#32 else 0#32)) ∧
    exec .swClear s = .next ({ s with win := Vector.replicate 31 0#8, winLen := 0 }.answered .ok 0#32)

/-- With DISCARD = 0, SEEDED = PATVALID = 1 and arg not 0, PRBG.SETUP empties the window and loads ITER_REM with arg. With
cancel_req = 0 it then stands at its first sampling point with no response and nothing else changed. With cancel_req =
1 it is cancelled before any byte step: DISCARD = 1, response (CANCELLED, 0), the block idle, nothing else changed;
that this is one transition is the model's choice, log entry 4. At a sampling point with cancel_req = 1 (hard reset
low) the step sets DISCARD, answers (CANCELLED, 0), makes the block idle and keeps XS, WIN, WINLEN, ITER_REM and
everything else of the block. That the host's levels move on to the next of the script at that step, and that an
accepted PRBG.SETUP leaves no response on the port, is the model's choice, log entries 2 and 5. (42_prbg_setup.md
section 3 (R168, R169, R172, R174); 60_exceptions.md section 3 (R302)) -/
def Obligations.SetupBeginsAndCancels : Prop :=
  (∀ (arg : BitVec 32) (s : State), s.discard = false → s.seeded = true → s.patValid = true → arg ≠ 0#32 →
    exec (.prbgSetup arg) s =
      if s.pins.cancelReq = true then
        .next ({ s with win := Vector.replicate 31 0#8, winLen := 0, iterRem := arg, phase := .idle,
                        discard := true }.answered .cancelled 0#32)
      else
        .next { s with win := Vector.replicate 31 0#8, winLen := 0, iterRem := arg, phase := .sampling,
                       response := none }) ∧
  ∀ s : State, s.pins.hardReset = false → s.phase = .sampling → s.pins.cancelReq = true →
    step s = .next { s with discard := true, phase := .idle, response := some { code := 0x04#8, val := 0#32 },
                            pins := s.script.headD s.pins, script := s.script.tail }

/-- In the phase after a matching byte step (hard reset low) one step sets XS to the 32-bit value of the last four of the
next 64 stream bytes, empties the window and decrements ITER_REM; where ITER_REM was 1 the command ends with (OK, 0)
and the block is idle, else it stands at the next sampling point. cancel_req is not looked at. Nothing else of the
block changes. That the host's levels move on to the next of the script at that step is the model's choice, log entry
2. (42_prbg_setup.md section 3 (R168, R171, R174)) -/
def Obligations.ReseedTransition : Prop :=
  ∀ s : State, s.pins.hardReset = false → s.phase = .drawing →
    let x : U64 := (reseedWord s.xs).setWidth 64
    let t : State := { s with xs := x, win := Vector.replicate 31 0#8, winLen := 0, iterRem := s.iterRem - 1#32,
                              pins := s.script.headD s.pins, script := s.script.tail }
    step s =
      if s.iterRem = 1#32 then .next ({ t with phase := .idle }.answered .ok 0#32)
      else .next { t with phase := .sampling }

/-- At every sampling point with both pins low the step makes one generator step and puts its low byte into the window:
win ++ [b] if the window was not full, tail(win) ++ [b] if it was (given a loaded pattern and the window invariant).
It goes to the draws exactly where the new window is full and equal to the pattern, else it stays at a sampling point;
no other state of the block changes (BUF, g, the key registers, PAT, the flags, ITER_REM, the response). That the
host's levels move on to the next of the script is the model's choice, log entry 2. With SEEDED = PATVALID = 1 and
DISCARD = 0 the step makes the same XS and the same window as the host's XS.NEXT, SW.PUSH of the byte XS.NEXT
returned, SW.MATCH, and leaves the inner loop exactly where that SW.MATCH answers 1: an inference the spec marks
[derived: from rules R120, R138, R140 and R170]. (42_prbg_setup.md section 3 (R168, R170, R174); 41_window.md sections
3 and 4 (R137, R138, R139, R140); 40_xorshift.md section 3 (R120)) -/
def Obligations.ByteStepEqualsHostCommands : Prop :=
  (∀ s : State, s.phase = .sampling → s.pins.hardReset = false → s.pins.cancelReq = false →
    ∃ (w : Vector Byte 31) (n : Fin 32),
      step s = .next { s with xs := xsStep s.xs, win := w, winLen := n,
                              phase := if n = s.patLen ∧ w.toList.take n.val = s.pattern then .drawing else .sampling,
                              pins := s.script.headD s.pins, script := s.script.tail } ∧
      (WindowSound s → s.patValid = true →
        w.toList.take n.val =
          (if s.window.length < s.patLen.val then s.window ++ [(xsStep s.xs).setWidth 8]
           else s.window.tail ++ [(xsStep s.xs).setWidth 8]) ∧
        n.val = min (s.winLen.val + 1) s.patLen.val ∧ ∀ i : Fin 31, n.val ≤ i.val → w[i.val] = 0#8)) ∧
  ∀ s : State, s.phase = .sampling → s.pins.hardReset = false → s.pins.cancelReq = false → s.discard = false →
    s.seeded = true → s.patValid = true →
    ∃ (b : Byte) (t u v : State), step s = .next t ∧ exec .xsNext s = .next u ∧
      u.response = some { code := Code.bits .ok, val := b.setWidth 32 } ∧
      runAll [.swPush b, .swMatch] u = .next v ∧ t.xs = v.xs ∧ t.win = v.win ∧ t.winLen = v.winLen ∧
      (t.phase = .drawing ↔ v.response = some { code := Code.bits .ok, val := 1#32 })

/-- From the first sampling point of an outer iteration (empty window, pins low), if byte step n is the first after which
the last PATLEN bytes of the stream are the pattern, then after n steps the block has drawn exactly n bytes, its
window is the pattern, it is about to draw the reseed bytes, and nothing but XS, the window and the phase has changed.
(42_prbg_setup.md section 3 (R168, R170)) -/
def Obligations.SetupStopsAtTheFirstMatch : Prop :=
  ∀ (s : State) (n : Nat), SetupReady s → firstMatch s.pattern s.xs n →
    ∃ (w : Vector Byte 31) (l : Fin 32),
      runSteps n s = .next { s with xs := xsIter n s.xs, win := w, winLen := l, phase := .drawing } ∧
      l = s.patLen ∧ w.toList.take l.val = s.pattern

/-- From the first sampling point of an outer iteration with XS = 0, pins low, and a pattern with a non-zero byte, after
any number of steps the block is still at a sampling point, XS is still 0, and no response has been given. An
inference the spec marks [derived: from rules R168 and R121]. (42_prbg_setup.md section 3 (R168, R173); 40_xorshift.md
section 1 (R116)) -/
def Obligations.SetupNeverEndsFromZeroState : Prop :=
  ∀ (s : State) (n : Nat), SetupReady s → s.xs = 0#64 → (∃ b, b ∈ s.pattern ∧ b ≠ 0#8) →
    ∃ t, runSteps n s = .next t ∧ t.phase = .sampling ∧ t.xs = 0#64 ∧ t.response = s.response ∧
      t.iterRem = s.iterRem

/-- Let ns list, for each of ITER_REM outer iterations, the byte step at which the stream of that iteration first shows
the pattern, each stream starting from the value reseeded by the last four of the 64 bytes after the match before it.
Then from the first sampling point (empty window, pins low) the block ends after the sum of ns plus one step for each
iteration with response (OK, 0), XS the last reseed value, an empty window, ITER_REM 0, idle, and nothing else
changed. (42_prbg_setup.md section 3 (R168, R170, R171, R174)) -/
def Obligations.SetupRunsTheDelayProtocol : Prop :=
  ∀ (s : State) (ns : List Nat) (y : U64), SetupReady s → ns ≠ [] → ns.length = s.iterRem.toNat →
    setupTrace s.pattern s.xs ns y →
    runSteps (ns.sum + ns.length) s =
      .next ({ s with xs := y, win := Vector.replicate 31 0#8, winLen := 0, iterRem := 0#32,
                      phase := .idle }.answered .ok 0#32)

/-- With DISCARD = 0, the range inside BUF and its value below 2^4096, BN.LOAD answers OK with g[gd] the sum of the
range's bytes times powers of 256 (first byte most significant), every other register and all other state unchanged;
len = 0 loads 0. (43_bignum.md section 2 (R187); 10_state.md section 2 (R22)) -/
def Obligations.LoadReadsBigEndianValue : Prop :=
  ∀ (gd : Reg) (off len : Off) (s : State), s.discard = false → off.toNat + len.toNat ≤ 1024 →
    s.rangeValue off.toNat len.toNat < 2 ^ 4096 →
    exec (.bnLoad gd off len) s =
      .next ({ s with g := s.g.set gd.val (s.rangeValue off.toNat len.toNat) }.answered .ok 0#32)

/-- With DISCARD = 0, the range inside BUF and g[gs] below 256^len, BN.STORE answers OK: the byte at off + i is the digit
of g[gs] of weight 256^(len-1-i); every byte outside the range, and all other state, is unchanged. (43_bignum.md
section 2 (R189); 20_memory.md section 3 (R67)) -/
def Obligations.StoreWritesBigEndianBytes : Prop :=
  ∀ (gs : Reg) (off len : Off) (s : State), s.discard = false → off.toNat + len.toNat ≤ 1024 →
    s.reg gs < 256 ^ len.toNat →
    ∃ m : Memory, exec (.bnStore gs off len) s = .next ({ s with buf := m }.answered .ok 0#32) ∧
      ∀ a, memRead m a =
        if off.toNat ≤ a ∧ a < off.toNat + len.toNat then
          BitVec.ofNat 8 (s.reg gs / 256 ^ (off.toNat + len.toNat - 1 - a) % 256)
        else memRead s.buf a

/-- With DISCARD = 0, BN.GCD answers OK with g[gd] = gcd(g[gs1], g[gs2]) (gcd(0, 0) = 0), all other state unchanged; the
destination may be a source. (43_bignum.md section 3 (R195, R196)) -/
def Obligations.GcdIsTheGreatestCommonDivisor : Prop :=
  ∀ (gd gs1 gs2 : Reg) (s : State), s.discard = false →
    exec (.bnGcd gd gs1 gs2) s =
      .next ({ s with g := s.g.set gd.val (Nat.gcd (s.reg gs1) (s.reg gs2)) }.answered .ok 0#32)

/-- With DISCARD = 0 and g[gs3] not 0, BN.MODEXP answers OK with g[gd] = g[gs1] ^ g[gs2] mod g[gs3] (b^0 = 1, modulus 1
gives 0), all other state unchanged. (43_bignum.md section 4 (R198, R199)) -/
def Obligations.ModexpIsTheModularPower : Prop :=
  ∀ (gd gs1 gs2 gs3 : Reg) (s : State), s.discard = false → s.reg gs3 ≠ 0 →
    exec (.bnModexp gd gs1 gs2 gs3) s =
      .next ({ s with g := s.g.set gd.val (s.reg gs1 ^ s.reg gs2 % s.reg gs3) }.answered .ok 0#32)

/-- With DISCARD = 0 and m = g[gs2] not 0: if gcd(g[gs1] mod m, m) = 1, BN.MODINV answers OK with g[gd] the x below m with
(g[gs1] * x) mod m = 1 mod m, all other state unchanged; otherwise it answers (E_DOMAIN, 0) and changes nothing.
(43_bignum.md section 5 (R201, R202)) -/
def Obligations.ModinvIsTheModularInverse : Prop :=
  ∀ (gd gs1 gs2 : Reg) (s : State), s.discard = false → s.reg gs2 ≠ 0 →
    (Nat.gcd (s.reg gs1 % s.reg gs2) (s.reg gs2) = 1 →
      ∃ x, x < s.reg gs2 ∧ s.reg gs1 * x % s.reg gs2 = 1 % s.reg gs2 ∧
        exec (.bnModinv gd gs1 gs2) s = .next ({ s with g := s.g.set gd.val x }.answered .ok 0#32)) ∧
    (Nat.gcd (s.reg gs1 % s.reg gs2) (s.reg gs2) ≠ 1 →
      exec (.bnModinv gd gs1 gs2) s = .next (s.answered .eDomain 0#32))

/-- SPT is the list of all primes below 1000 in ascending order; it has 168 entries. (10_state.md section 7 (R36)) -/
def Obligations.SmallPrimeTableIsComplete : Prop :=
  smallPrimes = (List.range 1000).filter (fun n => decide n.Prime) ∧ smallPrimes.length = 168

/-- With DISCARD = 0 and k ≤ 168, PR.SIEVE answers OK with the least index j ≥ k such that SPT[j] divides g[gs1], or 168
if there is none; PR.PPTEST answers OK with 1 if ppt(g[gs1]) and 0 if not. Neither changes any state. (44_prime.md
sections 1 and 2 (R216, R217, R224)) -/
def Obligations.SieveAndTestAnswers : Prop :=
  ∀ (gs1 : Reg) (k : Byte) (s : State), s.discard = false → k.toNat ≤ 168 →
    (∃ j : Nat, k.toNat ≤ j ∧ j ≤ 168 ∧ exec (.prSieve gs1 k) s = .next (s.answered .ok (BitVec.ofNat 32 j)) ∧
      (∀ i, k.toNat ≤ i → i < j → s.reg gs1 % smallPrimes.getD i 1 ≠ 0) ∧
      (j < 168 → s.reg gs1 % smallPrimes.getD j 1 = 0)) ∧
    exec (.prPptest gs1) s = .next (s.answered .ok (if ppt (s.reg gs1) = true then 1#32 else 0#32))

/-- ppt is false below 2 and for even numbers above 2, true for 2 and 3; for odd n ≥ 4 with n - 1 = 2^s * d, d odd, ppt(n)
is true iff for each of the 50 bases w, w mod n is 0, 1 or n - 1, or (w mod n)^d mod n is 1, or (w mod n)^(2^r d) mod
n is n - 1 for some r below s. The test is the model's choice among those the spec allows (its default), log entry 8.
(44_prime.md section 2 (R222)) -/
def Obligations.PptIsTheStrongTest : Prop :=
  (∀ n, n < 2 → ppt n = false) ∧ ppt 2 = true ∧ ppt 3 = true ∧ (∀ n, 4 ≤ n → n % 2 = 0 → ppt n = false) ∧
  ∀ n d e : Nat, 4 ≤ n → n % 2 = 1 → n - 1 = 2 ^ e * d → d % 2 = 1 →
    (ppt n = true ↔ ∀ w, w ∈ smallPrimes.take 50 → strongBase n d e w)

/-- For every prime n, ppt(n) is true: the property on which the termination of the prime search rests. The spec supplies
it from general knowledge (its words: [from general knowledge, not in source]), so this is an inference about rule
R222, not a rule. (44_prime.md section 2 (R222, R226)) -/
def Obligations.PrimesPassTheTest : Prop :=
  ∀ n : Nat, n.Prime → ppt n = true

/-- With DISCARD = 0, if v is the smallest number at or above g[gs1] that ppt accepts and v is below 2^4096, PR.NEXTPP
answers OK with g[gd] = v, all other state unchanged. (44_prime.md section 3 (R226, R227)) -/
def Obligations.NextppIsTheLeastProbablePrime : Prop :=
  ∀ (gd gs1 : Reg) (s : State) (v : Nat), s.discard = false → leastProbablePrime (s.reg gs1) v → v < 2 ^ 4096 →
    exec (.prNextpp gd gs1) s = .next ({ s with g := s.g.set gd.val v }.answered .ok 0#32)

/-- With DISCARD = 0, if c is the smallest probable prime at or above g[gs1] and the single pass (each table entry tested
once, in ascending order, a divisible candidate replaced by the smallest probable prime above it, every value below
2^4096) leads from c to r, PR.SEARCH answers OK with g[gd] = r, all other state unchanged. The model's function search
gives a result exactly where that pass has one, and then it is that result. (44_prime.md sections 3 and 4 (R226, R229,
R230)) -/
def Obligations.SearchIsTheSinglePass : Prop :=
  (∀ (gd gs1 : Reg) (s : State) (c r : Nat), s.discard = false → leastProbablePrime (s.reg gs1) c → c < 2 ^ 4096 →
    ScanResult smallPrimes c r →
    exec (.prSearch gd gs1) s = .next ({ s with g := s.g.set gd.val r }.answered .ok 0#32)) ∧
  ∀ a r : Nat, search a = some r ↔ ∃ c, leastProbablePrime a c ∧ c < 2 ^ 4096 ∧ ScanResult smallPrimes c r

/-- Whatever the start, if search has a result it is at least the start, ppt accepts it, it is at least 1009 and below
2^4096. The lower bound is an inference the spec marks [derived: from rules R226 and R229]. The upper bound is the
model's: search has no result where a value reaches 2^4096, which is how the model meets the E_OVERFLOW of R230 (log
entry 7). (44_prime.md section 3 (R226); 44_prime.md section 4 (R229, R230)) -/
def Obligations.SearchNeverBelow1009 : Prop :=
  ∀ start r : Nat, search start = some r → start ≤ r ∧ ppt r = true ∧ 1009 ≤ r ∧ r < 2 ^ 4096

/-- With DISCARD = 0 and the range inside BUF, let p and q be the results of the single pass (the smallest probable prime
at or above the start, then the table scan, every value below 2^4096) from the big-endian values of the first
floor(len/2) and the remaining bytes, with p q below 2^4096, and φ = (p-1)(q-1). If gcd(65537, φ) = 1, DRSA.DERIVE
answers OK with KP = p, KQ = q, KN = p q, KPHI = φ, KD the d with 0 < d < φ and d * 65537 mod φ = 1, KEYVALID = 1, and
nothing else changed; otherwise it answers (E_DERIVE, 0) and changes nothing. (45_drsa.md section 2 (R247, R248, R250,
R252); 44_prime.md sections 3 and 4 (R226, R229); 43_bignum.md section 5 (R201)) -/
def Obligations.DeriveCommitsTheKey : Prop :=
  ∀ (off len : Off) (s : State) (p q : Nat), s.discard = false → off.toNat + len.toNat ≤ 1024 →
    SearchResult (s.rangeValue off.toNat (len.toNat / 2)) p →
    SearchResult (s.rangeValue (off.toNat + len.toNat / 2) (len.toNat - len.toNat / 2)) q →
    p * q < 2 ^ 4096 →
    (Nat.gcd 65537 ((p - 1) * (q - 1)) = 1 →
      ∃ d, 0 < d ∧ d < (p - 1) * (q - 1) ∧ d * 65537 % ((p - 1) * (q - 1)) = 1 ∧
        exec (.drsaDerive off len) s =
          .next ({ s with kp := p, kq := q, kn := p * q, kphi := (p - 1) * (q - 1), kd := d,
                          keyValid := true }.answered .ok 0#32)) ∧
    (Nat.gcd 65537 ((p - 1) * (q - 1)) ≠ 1 →
      exec (.drsaDerive off len) s = .next (s.answered .eDerive 0#32))

/-- With DISCARD = 0 and KEYVALID = 1, KEY.GET answers OK with g[gd] = KN for PUB.N, 65537 for PUB.E, KD for PRIV.D, KP
for PRIV.P, KQ for PRIV.Q, all other state unchanged. (45_drsa.md section 3 (R256, R257)) -/
def Obligations.KeyGetCopiesTheMember : Prop :=
  ∀ (gd : Reg) (s : State), s.discard = false → s.keyValid = true →
    exec (.keyGet gd .pubN) s = .next ({ s with g := s.g.set gd.val s.kn }.answered .ok 0#32) ∧
    exec (.keyGet gd .pubE) s = .next ({ s with g := s.g.set gd.val 65537 }.answered .ok 0#32) ∧
    exec (.keyGet gd .privD) s = .next ({ s with g := s.g.set gd.val s.kd }.answered .ok 0#32) ∧
    exec (.keyGet gd .privP) s = .next ({ s with g := s.g.set gd.val s.kp }.answered .ok 0#32) ∧
    exec (.keyGet gd .privQ) s = .next ({ s with g := s.g.set gd.val s.kq }.answered .ok 0#32)

/-- With DISCARD = 0 and off + len > 1024: XS.RESEED with len not 0, XS.FILL with SEEDED = 1, SW.LOADPAT with 1 ≤ len ≤
31, BN.LOAD, BN.STORE and DRSA.DERIVE answer (E_RANGE, 0) and change nothing. (60_exceptions.md sections 1 and 2
(R291, R294); 20_memory.md section 3 (R66, R67)) -/
def Obligations.RangeErrors : Prop :=
  ∀ (off len : Off) (r : Reg) (s : State), s.discard = false → 1024 < off.toNat + len.toNat →
    (len ≠ 0#10 → exec (.xsReseed off len) s = .next (s.answered .eRange 0#32)) ∧
    (s.seeded = true → exec (.xsFill off len) s = .next (s.answered .eRange 0#32)) ∧
    (1 ≤ len.toNat → len.toNat ≤ 31 → exec (.swLoadpat off len) s = .next (s.answered .eRange 0#32)) ∧
    exec (.bnLoad r off len) s = .next (s.answered .eRange 0#32) ∧
    exec (.bnStore r off len) s = .next (s.answered .eRange 0#32) ∧
    exec (.drsaDerive off len) s = .next (s.answered .eRange 0#32)

/-- With DISCARD = 0: SW.LOADPAT with len = 0 or len > 31, XS.RESEED with len = 0 and PRBG.SETUP with arg = 0 answer
(E_CONFIG, 0) and change nothing, whatever the offset. (60_exceptions.md sections 1 and 2 (R288, R294)) -/
def Obligations.ConfigurationErrors : Prop :=
  ∀ (off len : Off) (s : State), s.discard = false →
    (len.toNat = 0 ∨ 31 < len.toNat → exec (.swLoadpat off len) s = .next (s.answered .eConfig 0#32)) ∧
    exec (.xsReseed off 0#10) s = .next (s.answered .eConfig 0#32) ∧
    exec (.prbgSetup 0#32) s = .next (s.answered .eConfig 0#32)

/-- With DISCARD = 0: BN.LOAD of a range in BUF whose value is 2^4096 or more, BN.STORE of a value of 256^len or more to a
range in BUF, PR.NEXTPP where no probable prime lies from the source to 2^4096 - 1, PR.SEARCH where the single pass
from the source has no result below 2^4096 (no smallest probable prime below 2^4096 to start from, or none to advance
to), and DRSA.DERIVE of a range in BUF where the pass from one of the two halves has none or p q is 2^4096 or more
answer (E_OVERFLOW, 0); BN.MODEXP and BN.MODINV with modulus 0 answer (E_DOMAIN, 0); none changes any state.
(60_exceptions.md sections 1 and 2 (R292, R293, R294); 43_bignum.md sections 2, 4 and 5 (R187, R189, R199, R202);
44_prime.md sections 3 and 4 (R227, R230); 45_drsa.md section 2 (R247)) -/
def Obligations.OverflowAndDomainErrors : Prop :=
  ∀ (off len : Off) (gd a b c : Reg) (s : State), s.discard = false →
    (off.toNat + len.toNat ≤ 1024 → 2 ^ 4096 ≤ s.rangeValue off.toNat len.toNat →
      exec (.bnLoad gd off len) s = .next (s.answered .eOverflow 0#32)) ∧
    (off.toNat + len.toNat ≤ 1024 → 256 ^ len.toNat ≤ s.reg a →
      exec (.bnStore a off len) s = .next (s.answered .eOverflow 0#32)) ∧
    ((∀ x, s.reg a ≤ x → x < 2 ^ 4096 → ppt x = false) →
      exec (.prNextpp gd a) s = .next (s.answered .eOverflow 0#32)) ∧
    ((¬∃ r, SearchResult (s.reg a) r) → exec (.prSearch gd a) s = .next (s.answered .eOverflow 0#32)) ∧
    (off.toNat + len.toNat ≤ 1024 →
      (¬∃ p, SearchResult (s.rangeValue off.toNat (len.toNat / 2)) p) ∨
        (¬∃ q, SearchResult (s.rangeValue (off.toNat + len.toNat / 2) (len.toNat - len.toNat / 2)) q) ∨
        (∃ p q, SearchResult (s.rangeValue off.toNat (len.toNat / 2)) p ∧
          SearchResult (s.rangeValue (off.toNat + len.toNat / 2) (len.toNat - len.toNat / 2)) q ∧ 2 ^ 4096 ≤ p * q) →
      exec (.drsaDerive off len) s = .next (s.answered .eOverflow 0#32)) ∧
    (s.reg c = 0 → exec (.bnModexp gd a b c) s = .next (s.answered .eDomain 0#32)) ∧
    (s.reg b = 0 → exec (.bnModinv gd a b) s = .next (s.answered .eDomain 0#32))

/-- BUF is in the model's canonical list form (log entry 23), every big register holds a storable value, and the window,
key, sequencer and response invariants hold in the reset state. (10_state.md section 11 (R44)) -/
def Obligations.ResetMeetsTheInvariants : Prop :=
  memWf State.reset.buf = true ∧ RegistersStorable State.reset ∧ WindowSound State.reset ∧ KeySound State.reset ∧
    SequencerSound State.reset ∧ ResponseSound State.reset

/-- For every state whose BUF is in canonical form, a step's next state has its BUF in canonical form; so no command
writes outside BUF, and equal buffers stay equal lists. The form (addresses strictly rising, no cell equal to 0
listed) is the model's way of holding BUF, log entry 23; the spec gives the offsets 0 to BUFSZ - 1 and what a read
returns. (10_state.md section 9 (R41); 20_memory.md sections 1, 3 and 4 (R61, R67, R76)) -/
def Obligations.StepKeepsBufferCanonical : Prop :=
  ∀ s t : State, step s = .next t → memWf s.buf = true → memWf t.buf = true

/-- For every state whose general and key registers are below 2^W, a step's next state has them below 2^W: no command
writes a value that does not fit. (10_state.md section 2 (R21, R22); 10_state.md section 8 (R38)) -/
def Obligations.StepKeepsRegistersStorable : Prop :=
  ∀ s t : State, step s = .next t → RegistersStorable s → RegistersStorable t

/-- For every state with WINLEN ≤ PATLEN, PATVALID = 1 exactly where PATLEN > 0, and the entries of PAT and WIN past their
lengths 0, a step's next state has the same. (10_state.md sections 5 and 7 (R31, R35, R37)) -/
def Obligations.StepKeepsWindowSound : Prop :=
  ∀ s t : State, step s = .next t → WindowSound s → WindowSound t

/-- For every state in which KEYVALID = 1 implies the facts of a committed key (p and q results of the single pass from
some starts, probable primes and at least 1009, n = p q, φ = (p-1)(q-1) > 65537, gcd(65537, φ) = 1, 0 < d < φ, d *
65537 mod φ = 1), a step's next state has the same. The facts are an inference the spec marks [derived: from rules
R247, R252 and R201]. (45_drsa.md section 2 (R247, R252); 44_prime.md section 4 (R229); 43_bignum.md section 5 (R201)) -/
def Obligations.StepKeepsKeySound : Prop :=
  ∀ s t : State, step s = .next t → KeySound s → KeySound t

/-- For every state in which a running PRBG.SETUP is seeded, has a pattern, a non-zero ITER_REM, DISCARD = 0 and no
response, in which the draws follow a match, and in which an idle block not in the must-discard state has ITER_REM 0,
a step's next state has the same. (10_state.md section 4 (R29); 42_prbg_setup.md section 3 (R168, R174)) -/
def Obligations.StepKeepsSequencerSound : Prop :=
  ∀ s t : State, step s = .next t → SequencerSound s → SequencerSound t

/-- For every state whose response, if any, carries one of the ten codes and the value 0 unless the code is OK, a step's
next state has the same. (60_exceptions.md section 1 (R286); 30_encoding.md section 1 (R88)) -/
def Obligations.StepKeepsResponseSound : Prop :=
  ∀ s t : State, step s = .next t → ResponseSound s → ResponseSound t

/-- For every state and every value put in KPHI in its place, the step from the changed state goes to the same next state
but for KPHI: same response, same registers, same memory. (10_state.md section 8 (R40); 45_drsa.md section 3 (R256)) -/
def Obligations.TotientIsNeverObserved : Prop :=
  ∀ (s t : State) (k : Nat), step s = .next t → ∃ k', step { s with kphi := k } = .next { t with kphi := k' }

/-- For a 64-byte key, a 32-byte digest, and offsets whose ranges fit BUF (beyond BUF the expansion is the model's choice,
log entry 26), the commands of PRBG.NEW run to the end in every state with DISCARD = 0, and after them SEEDED =
PATVALID = 1, PATLEN is the confusion string's length, the window is empty, XS is the key's big-endian value modulo
2^32 and the pattern is the digest's slice. (42_prbg_setup.md section 2 (R161, R163, R166)) -/
def Obligations.PrbgNewPreparesTheBlock : Prop :=
  ∀ (key digest : List Byte) (len iterations : Nat) (a b : Off) (cmds : List Instr) (s : State),
    key.length = 64 → digest.length = 32 → prbgNew key digest len iterations a b = some cmds →
    a.toNat + 64 ≤ 1024 → b.toNat + len ≤ 1024 → s.discard = false →
    ∃ t, runAll cmds s = .next t ∧ t.seeded = true ∧ t.patValid = true ∧ t.patLen.val = len ∧ t.winLen = 0 ∧
      t.xs.toNat = be key % 2 ^ 32 ∧ t.pattern = confusionPattern digest len
end

