-- ==== Sys2Proof/Laws/Decode.lean ====
section
/-! SUPPORT. The decoder on what the encoder builds: each field of a packet reads back as it was written. -/

namespace Sys2Proof

@[simp] theorem pktArg_packetOf (arg : BitVec 32) (op : BitVec 8) (w : BitVec 24) : pktArg (packetOf arg op w) = arg := by
  apply BitVec.eq_of_getLsbD_eq
  intro i hi
  simp only [pktArg, packetOf, BitVec.getLsbD_extractLsb', BitVec.getLsbD_append]
  simp [hi, show ¬32 + i < 24 by omega, show ¬32 + i - 24 < 8 by omega, show 32 + i - 24 - 8 = i by omega]

@[simp] theorem pktOp_packetOf (arg : BitVec 32) (op : BitVec 8) (w : BitVec 24) : pktOp (packetOf arg op w) = op := by
  apply BitVec.eq_of_getLsbD_eq
  intro i hi
  simp only [pktOp, packetOf, BitVec.getLsbD_extractLsb', BitVec.getLsbD_append]
  simp [hi]

@[simp] theorem pktRest_packetOf (arg : BitVec 32) (op : BitVec 8) (w : BitVec 24) :
    pktRest (packetOf arg op w) = w := by
  apply BitVec.eq_of_getLsbD_eq
  intro i hi
  simp only [pktRest, packetOf, BitVec.getLsbD_extractLsb', BitVec.getLsbD_append]
  simp [hi]

/-- A packet is its three parts put together. -/
theorem packetOf_parts (p : Packet) : packetOf (pktArg p) (pktOp p) (pktRest p) = p := by
  apply BitVec.eq_of_getLsbD_eq
  intro i hi
  simp only [pktArg, pktOp, pktRest, packetOf, BitVec.getLsbD_extractLsb', BitVec.getLsbD_append]
  by_cases h1 : i < 24
  · simp [h1]
  · by_cases h2 : i - 24 < 8
    · simp [h1, h2, show 24 + (i - 24) = i by omega]
    · simp [h1, h2, show 32 + (i - 24 - 8) = i by omega, show i - 24 - 8 < 32 by omega]

theorem formatR_bitsR (rd rs1 rs2 rs3 : BitVec 4) (k : BitVec 4 → BitVec 4 → BitVec 4 → BitVec 4 → Decoded) :
    formatR (bitsR rd rs1 rs2 rs3) k = k rd rs1 rs2 rs3 := by
  have h0 : (bitsR rd rs1 rs2 rs3).extractLsb' 0 8 = 0#8 := by
    apply BitVec.eq_of_getLsbD_eq
    intro i hi
    simp only [bitsR, BitVec.getLsbD_extractLsb', BitVec.getLsbD_append]
    simp [hi]
  have h1 : (bitsR rd rs1 rs2 rs3).extractLsb' 20 4 = rd := by
    apply BitVec.eq_of_getLsbD_eq
    intro i hi
    simp only [bitsR, BitVec.getLsbD_extractLsb', BitVec.getLsbD_append]
    simp [hi, show ¬20 + i < 8 by omega, show ¬20 + i - 8 < 4 by omega, show ¬20 + i - 8 - 4 < 4 by omega,
      show ¬20 + i - 8 - 4 - 4 < 4 by omega, show 20 + i - 8 - 4 - 4 - 4 = i by omega]
  have h2 : (bitsR rd rs1 rs2 rs3).extractLsb' 16 4 = rs1 := by
    apply BitVec.eq_of_getLsbD_eq
    intro i hi
    simp only [bitsR, BitVec.getLsbD_extractLsb', BitVec.getLsbD_append]
    simp [hi, show ¬16 + i < 8 by omega, show ¬16 + i - 8 < 4 by omega, show ¬16 + i - 8 - 4 < 4 by omega,
      show 16 + i - 8 - 4 - 4 = i by omega]
  have h3 : (bitsR rd rs1 rs2 rs3).extractLsb' 12 4 = rs2 := by
    apply BitVec.eq_of_getLsbD_eq
    intro i hi
    simp only [bitsR, BitVec.getLsbD_extractLsb', BitVec.getLsbD_append]
    simp [hi, show ¬12 + i < 8 by omega, show ¬12 + i - 8 < 4 by omega,
      show 12 + i - 8 - 4 = i by omega]
  have h4 : (bitsR rd rs1 rs2 rs3).extractLsb' 8 4 = rs3 := by
    apply BitVec.eq_of_getLsbD_eq
    intro i hi
    simp only [bitsR, BitVec.getLsbD_extractLsb', BitVec.getLsbD_append]
    simp [hi]
  simp [formatR, onlyZero, h0, h1, h2, h3, h4]

theorem formatB_bitsB (r : BitVec 4) (off len : Off) (k : BitVec 4 → Off → Off → Decoded) :
    formatB (bitsB r off len) k = k r off len := by
  have h1 : (bitsB r off len).extractLsb' 20 4 = r := by
    apply BitVec.eq_of_getLsbD_eq
    intro i hi
    simp only [bitsB, BitVec.getLsbD_extractLsb', BitVec.getLsbD_append]
    simp [hi, show ¬20 + i < 10 by omega, show ¬20 + i - 10 < 10 by omega, show 20 + i - 10 - 10 = i by omega]
  have h2 : (bitsB r off len).extractLsb' 10 10 = off := by
    apply BitVec.eq_of_getLsbD_eq
    intro i hi
    simp only [bitsB, BitVec.getLsbD_extractLsb', BitVec.getLsbD_append]
    simp [hi]
  have h3 : (bitsB r off len).extractLsb' 0 10 = len := by
    apply BitVec.eq_of_getLsbD_eq
    intro i hi
    simp only [bitsB, BitVec.getLsbD_extractLsb', BitVec.getLsbD_append]
    simp [hi]
  simp [formatB, h1, h2, h3]

theorem formatK_bitsK (rd rs1 : BitVec 4) (b : Byte) (k : BitVec 4 → BitVec 4 → Byte → Decoded) :
    formatK (bitsK rd rs1 b) k = k rd rs1 b := by
  have h0 : (bitsK rd rs1 b).extractLsb' 8 8 = 0#8 := by
    apply BitVec.eq_of_getLsbD_eq
    intro i hi
    simp only [bitsK, BitVec.getLsbD_extractLsb', BitVec.getLsbD_append]
    simp [hi]
  have h1 : (bitsK rd rs1 b).extractLsb' 20 4 = rd := by
    apply BitVec.eq_of_getLsbD_eq
    intro i hi
    simp only [bitsK, BitVec.getLsbD_extractLsb', BitVec.getLsbD_append]
    simp [hi, show ¬20 + i < 8 by omega, show ¬20 + i - 8 < 8 by omega, show ¬20 + i - 8 - 8 < 4 by omega,
      show 20 + i - 8 - 8 - 4 = i by omega]
  have h2 : (bitsK rd rs1 b).extractLsb' 16 4 = rs1 := by
    apply BitVec.eq_of_getLsbD_eq
    intro i hi
    simp only [bitsK, BitVec.getLsbD_extractLsb', BitVec.getLsbD_append]
    simp [hi, show ¬16 + i < 8 by omega, show ¬16 + i - 8 < 8 by omega,
      show 16 + i - 8 - 8 = i by omega]
  have h3 : (bitsK rd rs1 b).extractLsb' 0 8 = b := by
    apply BitVec.eq_of_getLsbD_eq
    intro i hi
    simp only [bitsK, BitVec.getLsbD_extractLsb', BitVec.getLsbD_append]
    simp [hi]
  simp [formatK, onlyZero, h0, h1, h2, h3]

theorem formatO_bitsO (off : Off) (b : Byte) (k : Off → Byte → Decoded) :
    formatO (bitsO off b) k = k off b := by
  have h0 : (bitsO off b).extractLsb' 20 4 = 0#4 := by
    apply BitVec.eq_of_getLsbD_eq
    intro i hi
    simp only [bitsO, BitVec.getLsbD_extractLsb', BitVec.getLsbD_append]
    simp [show ¬20 + i < 8 by omega, show ¬20 + i - 8 < 2 by omega, show ¬20 + i - 8 - 2 < 10 by omega]
  have h1 : (bitsO off b).extractLsb' 8 2 = 0#2 := by
    apply BitVec.eq_of_getLsbD_eq
    intro i hi
    simp only [bitsO, BitVec.getLsbD_extractLsb', BitVec.getLsbD_append]
    simp [hi]
  have h2 : (bitsO off b).extractLsb' 10 10 = off := by
    apply BitVec.eq_of_getLsbD_eq
    intro i hi
    simp only [bitsO, BitVec.getLsbD_extractLsb', BitVec.getLsbD_append]
    simp [hi, show ¬10 + i < 8 by omega, show ¬10 + i - 8 < 2 by omega,
      show 10 + i - 8 - 2 = i by omega]
  have h3 : (bitsO off b).extractLsb' 0 8 = b := by
    apply BitVec.eq_of_getLsbD_eq
    intro i hi
    simp only [bitsO, BitVec.getLsbD_extractLsb', BitVec.getLsbD_append]
    simp [hi]
  simp [formatO, onlyZero, h0, h1, h2, h3]

theorem regField_regBits (r : Reg) (k : Reg → Decoded) : regField (regBits r) k = k r := by
  have h : (regBits r).toNat = r.val := by
    have := r.isLt
    simp [regBits]
    omega
  have hr : (regBits r).toNat < 8 := by rw [h]; exact r.isLt
  rw [regField, dif_pos hr]
  congr 1
  exact Fin.ext h

@[simp] theorem noReg_zero (r : Decoded) : noReg 0 r = r := by simp [noReg, onlyZero]

theorem selField_selBits (sel : KeySel) (f : KeySel → Decoded) : selField (selBits sel) f = f sel := by
  cases sel <;> simp [selField, selBits]

end Sys2Proof
end

