-- ==== Sys2Proof/Laws/Memory.lean ====
section
/-! SUPPORT. The laws of BUF: what a read finds after a write, and that every write keeps the canonical form. -/

namespace Sys2Proof.Machine

@[simp] theorem memRead_nil (a : Nat) : memRead [] a = 0#8 := rfl

theorem memRead_memErase (m : Memory) (a x : Nat) :
    memRead (memErase m a) x = if x = a then 0#8 else memRead m x := by
  induction m with
  | nil => simp [memErase]
  | cons c m ih =>
    unfold memErase at ih ⊢
    by_cases hc : c.1 = a
    · rw [List.filter_cons_of_neg (by simp [hc]), ih]
      by_cases hx : x = a
      · simp [hx]
      · have : c.1 ≠ x := fun h => hx (h.symm.trans hc)
        simp [hx, memRead, this]
    · rw [List.filter_cons_of_pos (by simp [hc])]
      simp only [memRead]
      by_cases hx : c.1 = x
      · simp [hx, show x ≠ a from fun h => hc (hx.trans h)]
      · simp [hx, ih]

theorem memRead_memInsert_same (m : Memory) (a : Nat) (b : Byte) (h : ∀ c ∈ m, c.1 ≠ a) :
    memRead (memInsert m a b) a = b := by
  induction m with
  | nil => simp [memInsert, memRead]
  | cons c m ih =>
    unfold memInsert
    split
    · simp [memRead]
    · simp [memRead, h c (by simp), ih fun d hd => h d (by simp [hd])]

theorem memRead_memInsert_other (m : Memory) (a x : Nat) (b : Byte) (h : x ≠ a) :
    memRead (memInsert m a b) x = memRead m x := by
  induction m with
  | nil => simp [memInsert, memRead, Ne.symm h]
  | cons c m ih =>
    unfold memInsert
    split
    · simp [memRead, Ne.symm h]
    · simp [memRead, ih]

/-- What a read finds after a write: the byte written in the one cell, what was there in the others. It holds of every
list of cells, in canonical form or not. -/
theorem memRead_memWrite (m : Memory) (a x : Nat) (b : Byte) :
    memRead (memWrite m a b) x = if x = a then b else memRead m x := by
  unfold memWrite
  split
  · next hb => rw [memRead_memErase, hb]
  · by_cases hx : x = a
    · subst hx
      rw [if_pos rfl]
      exact memRead_memInsert_same _ _ _ fun c hc => by
        simpa using (List.mem_filter.mp hc).2
    · rw [memRead_memInsert_other _ _ _ _ hx, memRead_memErase, if_neg hx, if_neg hx]

/-- What a read finds after a range write (R67): the bytes written in the range, what was there outside it. -/
theorem memRead_memWriteRange (s : List Byte) (m : Memory) (off x : Nat) :
    memRead (memWriteRange m off s) x =
      if off ≤ x ∧ x < off + s.length then s.getD (x - off) 0#8 else memRead m x := by
  induction s generalizing m off with
  | nil => simp [memWriteRange, show ¬(off ≤ x ∧ x < off) by omega]
  | cons b s ih =>
    rw [memWriteRange, ih, memRead_memWrite]
    simp only [List.length_cons]
    rcases Nat.lt_trichotomy x off with h | h | h
    · rw [if_neg (by omega), if_neg (by omega), if_neg (by omega)]
    · subst h
      rw [if_neg (by omega), if_pos rfl, if_pos (by omega)]
      simp
    · by_cases h2 : x < off + 1 + s.length
      · rw [if_pos (by omega), if_pos (by omega)]
        obtain ⟨k, hk⟩ : ∃ k, x - off = k + 1 := ⟨x - off - 1, by omega⟩
        rw [hk, List.getD_cons_succ, show x - (off + 1) = k by omega]
      · rw [if_neg (by omega), if_neg (by omega), if_neg (by omega)]

@[simp] theorem memReadRange_length (m : Memory) (off n : Nat) : (memReadRange m off n).length = n := by
  induction n generalizing off with
  | zero => rfl
  | succ n ih => simp [memReadRange, ih]

theorem memReadRange_getElem (m : Memory) (off n i : Nat) (h : i < (memReadRange m off n).length) :
    (memReadRange m off n)[i] = memRead m (off + i) := by
  induction n generalizing off i with
  | zero => simp at h
  | succ n ih =>
    cases i with
    | zero => simp [memReadRange]
    | succ i =>
      simp only [memReadRange, List.getElem_cons_succ]
      rw [ih]
      congr 1
      omega

/-- A range read is the list of its cells' bytes, lowest offset first (R66). -/
theorem memReadRange_eq_map (m : Memory) (off n : Nat) :
    memReadRange m off n = (List.range n).map fun i => memRead m (off + i) := by
  apply List.ext_getElem
  · simp
  · intro i h1 h2
    simp [memReadRange_getElem]

/-! The canonical form. -/

theorem memWfFrom_cons {lo : Nat} {c : Host.Cell} {m : Memory} :
    memWfFrom lo (c :: m) = true ↔
      lo ≤ c.1 ∧ c.1 < Config.bufSize ∧ c.2 ≠ 0#8 ∧ memWfFrom (c.1 + 1) m = true := by
  simp [memWfFrom, and_assoc]

theorem memWfFrom_mono {lo lo' : Nat} {m : Memory} (h : lo' ≤ lo) (hm : memWfFrom lo m = true) :
    memWfFrom lo' m = true := by
  cases m with
  | nil => rfl
  | cons c m =>
    obtain ⟨h1, h2⟩ := memWfFrom_cons.mp hm
    exact memWfFrom_cons.mpr ⟨Nat.le_trans h h1, h2⟩

theorem memErase_wf {lo : Nat} {m : Memory} (a : Nat) (hm : memWfFrom lo m = true) :
    memWfFrom lo (memErase m a) = true := by
  induction m generalizing lo with
  | nil => rfl
  | cons c m ih =>
    obtain ⟨h1, h2, h3, h4⟩ := memWfFrom_cons.mp hm
    unfold memErase at ih ⊢
    by_cases hc : c.1 = a
    · rw [List.filter_cons_of_neg (by simp [hc])]
      exact ih (memWfFrom_mono (by omega) h4)
    · rw [List.filter_cons_of_pos (by simp [hc])]
      exact memWfFrom_cons.mpr ⟨h1, h2, h3, ih h4⟩

theorem memInsert_wf {lo : Nat} {m : Memory} {a : Nat} {b : Byte} (hlo : lo ≤ a) (ha : a < Config.bufSize)
    (hb : b ≠ 0#8) (hn : ∀ c ∈ m, c.1 ≠ a) (hm : memWfFrom lo m = true) : memWfFrom lo (memInsert m a b) = true := by
  induction m generalizing lo with
  | nil => exact memWfFrom_cons.mpr ⟨hlo, ha, hb, rfl⟩
  | cons c m ih =>
    obtain ⟨h1, h2, h3, h4⟩ := memWfFrom_cons.mp hm
    unfold memInsert
    split
    · next h => exact memWfFrom_cons.mpr ⟨hlo, ha, hb, memWfFrom_cons.mpr ⟨h, h2, h3, h4⟩⟩
    · next h =>
      have : c.1 ≠ a := hn c (by simp)
      exact memWfFrom_cons.mpr ⟨h1, h2, h3, ih (by omega) (fun d hd => hn d (by simp [hd])) h4⟩

/-- A write below BUFSZ keeps the canonical form. -/
theorem memWrite_wf {m : Memory} {a : Nat} (b : Byte) (ha : a < Config.bufSize) (hm : memWf m = true) :
    memWf (memWrite m a b) = true := by
  unfold memWrite
  split
  · exact memErase_wf a hm
  · next hb =>
    exact memInsert_wf (Nat.zero_le a) ha hb (fun c hc => by simpa using (List.mem_filter.mp hc).2) (memErase_wf a hm)

/-- A range write inside BUF keeps the canonical form. -/
theorem memWriteRange_wf {m : Memory} {off : Nat} (s : List Byte) (h : off + s.length ≤ Config.bufSize)
    (hm : memWf m = true) : memWf (memWriteRange m off s) = true := by
  induction s generalizing m off with
  | nil => exact hm
  | cons b s ih =>
    simp only [List.length_cons] at h
    exact ih (by omega) (memWrite_wf b (by omega) hm)

/-- The reset memory is in canonical form. -/
theorem reset_buf_wf : memWf State.reset.buf = true := rfl

end Sys2Proof.Machine
end

