-- ==== Sys2Proof/Laws/State.lean ====
section
/-! SUPPORT. The small lemmas of the state: for each named update, what each field is after it. The updates that are one
record update hold by rfl; those that choose between two (swPush, byteStep, ...) have a lemma for each field they leave
alone. -/

namespace Sys2Proof.Machine

/-! respond -/

@[simp] theorem State.respond_xs (s : State) (c : Code) (v : BitVec 32) : (s.respond c v).xs = s.xs := rfl
@[simp] theorem State.respond_seeded (s : State) (c : Code) (v : BitVec 32) : (s.respond c v).seeded = s.seeded := rfl
@[simp] theorem State.respond_patValid (s : State) (c : Code) (v : BitVec 32) : (s.respond c v).patValid = s.patValid := rfl
@[simp] theorem State.respond_patLen (s : State) (c : Code) (v : BitVec 32) : (s.respond c v).patLen = s.patLen := rfl
@[simp] theorem State.respond_pat (s : State) (c : Code) (v : BitVec 32) : (s.respond c v).pat = s.pat := rfl
@[simp] theorem State.respond_winLen (s : State) (c : Code) (v : BitVec 32) : (s.respond c v).winLen = s.winLen := rfl
@[simp] theorem State.respond_win (s : State) (c : Code) (v : BitVec 32) : (s.respond c v).win = s.win := rfl
@[simp] theorem State.respond_g (s : State) (c : Code) (v : BitVec 32) : (s.respond c v).g = s.g := rfl
@[simp] theorem State.respond_kp (s : State) (c : Code) (v : BitVec 32) : (s.respond c v).kp = s.kp := rfl
@[simp] theorem State.respond_kq (s : State) (c : Code) (v : BitVec 32) : (s.respond c v).kq = s.kq := rfl
@[simp] theorem State.respond_kn (s : State) (c : Code) (v : BitVec 32) : (s.respond c v).kn = s.kn := rfl
@[simp] theorem State.respond_kphi (s : State) (c : Code) (v : BitVec 32) : (s.respond c v).kphi = s.kphi := rfl
@[simp] theorem State.respond_kd (s : State) (c : Code) (v : BitVec 32) : (s.respond c v).kd = s.kd := rfl
@[simp] theorem State.respond_keyValid (s : State) (c : Code) (v : BitVec 32) : (s.respond c v).keyValid = s.keyValid := rfl
@[simp] theorem State.respond_discard (s : State) (c : Code) (v : BitVec 32) : (s.respond c v).discard = s.discard := rfl
@[simp] theorem State.respond_buf (s : State) (c : Code) (v : BitVec 32) : (s.respond c v).buf = s.buf := rfl
@[simp] theorem State.respond_iterRem (s : State) (c : Code) (v : BitVec 32) : (s.respond c v).iterRem = s.iterRem := rfl
@[simp] theorem State.respond_phase (s : State) (c : Code) (v : BitVec 32) : (s.respond c v).phase = s.phase := rfl
@[simp] theorem State.respond_response (s : State) (c : Code) (v : BitVec 32) : (s.respond c v).response = some { code := c.bits, val := v } := rfl
@[simp] theorem State.respond_packets (s : State) (c : Code) (v : BitVec 32) : (s.respond c v).packets = s.packets := rfl
@[simp] theorem State.respond_pins (s : State) (c : Code) (v : BitVec 32) : (s.respond c v).pins = s.pins := rfl
@[simp] theorem State.respond_script (s : State) (c : Code) (v : BitVec 32) : (s.respond c v).script = s.script := rfl

/-! answered -/

@[simp] theorem State.answered_xs (s : State) (c : Code) (v : BitVec 32) : (s.answered c v).xs = s.xs := rfl
@[simp] theorem State.answered_seeded (s : State) (c : Code) (v : BitVec 32) : (s.answered c v).seeded = s.seeded := rfl
@[simp] theorem State.answered_patValid (s : State) (c : Code) (v : BitVec 32) : (s.answered c v).patValid = s.patValid := rfl
@[simp] theorem State.answered_patLen (s : State) (c : Code) (v : BitVec 32) : (s.answered c v).patLen = s.patLen := rfl
@[simp] theorem State.answered_pat (s : State) (c : Code) (v : BitVec 32) : (s.answered c v).pat = s.pat := rfl
@[simp] theorem State.answered_winLen (s : State) (c : Code) (v : BitVec 32) : (s.answered c v).winLen = s.winLen := rfl
@[simp] theorem State.answered_win (s : State) (c : Code) (v : BitVec 32) : (s.answered c v).win = s.win := rfl
@[simp] theorem State.answered_g (s : State) (c : Code) (v : BitVec 32) : (s.answered c v).g = s.g := rfl
@[simp] theorem State.answered_kp (s : State) (c : Code) (v : BitVec 32) : (s.answered c v).kp = s.kp := rfl
@[simp] theorem State.answered_kq (s : State) (c : Code) (v : BitVec 32) : (s.answered c v).kq = s.kq := rfl
@[simp] theorem State.answered_kn (s : State) (c : Code) (v : BitVec 32) : (s.answered c v).kn = s.kn := rfl
@[simp] theorem State.answered_kphi (s : State) (c : Code) (v : BitVec 32) : (s.answered c v).kphi = s.kphi := rfl
@[simp] theorem State.answered_kd (s : State) (c : Code) (v : BitVec 32) : (s.answered c v).kd = s.kd := rfl
@[simp] theorem State.answered_keyValid (s : State) (c : Code) (v : BitVec 32) : (s.answered c v).keyValid = s.keyValid := rfl
@[simp] theorem State.answered_discard (s : State) (c : Code) (v : BitVec 32) : (s.answered c v).discard = s.discard := rfl
@[simp] theorem State.answered_buf (s : State) (c : Code) (v : BitVec 32) : (s.answered c v).buf = s.buf := rfl
@[simp] theorem State.answered_iterRem (s : State) (c : Code) (v : BitVec 32) : (s.answered c v).iterRem = s.iterRem := rfl
@[simp] theorem State.answered_phase (s : State) (c : Code) (v : BitVec 32) : (s.answered c v).phase = s.phase := rfl
@[simp] theorem State.answered_response (s : State) (c : Code) (v : BitVec 32) : (s.answered c v).response = some { code := c.bits, val := v } := rfl
@[simp] theorem State.answered_packets (s : State) (c : Code) (v : BitVec 32) : (s.answered c v).packets = s.packets := rfl
@[simp] theorem State.answered_pins (s : State) (c : Code) (v : BitVec 32) : (s.answered c v).pins = s.pins := rfl
@[simp] theorem State.answered_script (s : State) (c : Code) (v : BitVec 32) : (s.answered c v).script = s.script := rfl

/-! setReg -/

@[simp] theorem State.setReg_xs (s : State) (r : Reg) (v : Nat) : (s.setReg r v).xs = s.xs := rfl
@[simp] theorem State.setReg_seeded (s : State) (r : Reg) (v : Nat) : (s.setReg r v).seeded = s.seeded := rfl
@[simp] theorem State.setReg_patValid (s : State) (r : Reg) (v : Nat) : (s.setReg r v).patValid = s.patValid := rfl
@[simp] theorem State.setReg_patLen (s : State) (r : Reg) (v : Nat) : (s.setReg r v).patLen = s.patLen := rfl
@[simp] theorem State.setReg_pat (s : State) (r : Reg) (v : Nat) : (s.setReg r v).pat = s.pat := rfl
@[simp] theorem State.setReg_winLen (s : State) (r : Reg) (v : Nat) : (s.setReg r v).winLen = s.winLen := rfl
@[simp] theorem State.setReg_win (s : State) (r : Reg) (v : Nat) : (s.setReg r v).win = s.win := rfl
@[simp] theorem State.setReg_g (s : State) (r : Reg) (v : Nat) : (s.setReg r v).g = s.g.set r.val v := rfl
@[simp] theorem State.setReg_kp (s : State) (r : Reg) (v : Nat) : (s.setReg r v).kp = s.kp := rfl
@[simp] theorem State.setReg_kq (s : State) (r : Reg) (v : Nat) : (s.setReg r v).kq = s.kq := rfl
@[simp] theorem State.setReg_kn (s : State) (r : Reg) (v : Nat) : (s.setReg r v).kn = s.kn := rfl
@[simp] theorem State.setReg_kphi (s : State) (r : Reg) (v : Nat) : (s.setReg r v).kphi = s.kphi := rfl
@[simp] theorem State.setReg_kd (s : State) (r : Reg) (v : Nat) : (s.setReg r v).kd = s.kd := rfl
@[simp] theorem State.setReg_keyValid (s : State) (r : Reg) (v : Nat) : (s.setReg r v).keyValid = s.keyValid := rfl
@[simp] theorem State.setReg_discard (s : State) (r : Reg) (v : Nat) : (s.setReg r v).discard = s.discard := rfl
@[simp] theorem State.setReg_buf (s : State) (r : Reg) (v : Nat) : (s.setReg r v).buf = s.buf := rfl
@[simp] theorem State.setReg_iterRem (s : State) (r : Reg) (v : Nat) : (s.setReg r v).iterRem = s.iterRem := rfl
@[simp] theorem State.setReg_phase (s : State) (r : Reg) (v : Nat) : (s.setReg r v).phase = s.phase := rfl
@[simp] theorem State.setReg_response (s : State) (r : Reg) (v : Nat) : (s.setReg r v).response = s.response := rfl
@[simp] theorem State.setReg_packets (s : State) (r : Reg) (v : Nat) : (s.setReg r v).packets = s.packets := rfl
@[simp] theorem State.setReg_pins (s : State) (r : Reg) (v : Nat) : (s.setReg r v).pins = s.pins := rfl
@[simp] theorem State.setReg_script (s : State) (r : Reg) (v : Nat) : (s.setReg r v).script = s.script := rfl

/-! setXs -/

@[simp] theorem State.setXs_xs (s : State) (x : U64) : (s.setXs x).xs = x := rfl
@[simp] theorem State.setXs_seeded (s : State) (x : U64) : (s.setXs x).seeded = s.seeded := rfl
@[simp] theorem State.setXs_patValid (s : State) (x : U64) : (s.setXs x).patValid = s.patValid := rfl
@[simp] theorem State.setXs_patLen (s : State) (x : U64) : (s.setXs x).patLen = s.patLen := rfl
@[simp] theorem State.setXs_pat (s : State) (x : U64) : (s.setXs x).pat = s.pat := rfl
@[simp] theorem State.setXs_winLen (s : State) (x : U64) : (s.setXs x).winLen = s.winLen := rfl
@[simp] theorem State.setXs_win (s : State) (x : U64) : (s.setXs x).win = s.win := rfl
@[simp] theorem State.setXs_g (s : State) (x : U64) : (s.setXs x).g = s.g := rfl
@[simp] theorem State.setXs_kp (s : State) (x : U64) : (s.setXs x).kp = s.kp := rfl
@[simp] theorem State.setXs_kq (s : State) (x : U64) : (s.setXs x).kq = s.kq := rfl
@[simp] theorem State.setXs_kn (s : State) (x : U64) : (s.setXs x).kn = s.kn := rfl
@[simp] theorem State.setXs_kphi (s : State) (x : U64) : (s.setXs x).kphi = s.kphi := rfl
@[simp] theorem State.setXs_kd (s : State) (x : U64) : (s.setXs x).kd = s.kd := rfl
@[simp] theorem State.setXs_keyValid (s : State) (x : U64) : (s.setXs x).keyValid = s.keyValid := rfl
@[simp] theorem State.setXs_discard (s : State) (x : U64) : (s.setXs x).discard = s.discard := rfl
@[simp] theorem State.setXs_buf (s : State) (x : U64) : (s.setXs x).buf = s.buf := rfl
@[simp] theorem State.setXs_iterRem (s : State) (x : U64) : (s.setXs x).iterRem = s.iterRem := rfl
@[simp] theorem State.setXs_phase (s : State) (x : U64) : (s.setXs x).phase = s.phase := rfl
@[simp] theorem State.setXs_response (s : State) (x : U64) : (s.setXs x).response = s.response := rfl
@[simp] theorem State.setXs_packets (s : State) (x : U64) : (s.setXs x).packets = s.packets := rfl
@[simp] theorem State.setXs_pins (s : State) (x : U64) : (s.setXs x).pins = s.pins := rfl
@[simp] theorem State.setXs_script (s : State) (x : U64) : (s.setXs x).script = s.script := rfl

/-! writeRange -/

@[simp] theorem State.writeRange_xs (s : State) (off : Off) (bytes : List Byte) : (s.writeRange off bytes).xs = s.xs := rfl
@[simp] theorem State.writeRange_seeded (s : State) (off : Off) (bytes : List Byte) : (s.writeRange off bytes).seeded = s.seeded := rfl
@[simp] theorem State.writeRange_patValid (s : State) (off : Off) (bytes : List Byte) : (s.writeRange off bytes).patValid = s.patValid := rfl
@[simp] theorem State.writeRange_patLen (s : State) (off : Off) (bytes : List Byte) : (s.writeRange off bytes).patLen = s.patLen := rfl
@[simp] theorem State.writeRange_pat (s : State) (off : Off) (bytes : List Byte) : (s.writeRange off bytes).pat = s.pat := rfl
@[simp] theorem State.writeRange_winLen (s : State) (off : Off) (bytes : List Byte) : (s.writeRange off bytes).winLen = s.winLen := rfl
@[simp] theorem State.writeRange_win (s : State) (off : Off) (bytes : List Byte) : (s.writeRange off bytes).win = s.win := rfl
@[simp] theorem State.writeRange_g (s : State) (off : Off) (bytes : List Byte) : (s.writeRange off bytes).g = s.g := rfl
@[simp] theorem State.writeRange_kp (s : State) (off : Off) (bytes : List Byte) : (s.writeRange off bytes).kp = s.kp := rfl
@[simp] theorem State.writeRange_kq (s : State) (off : Off) (bytes : List Byte) : (s.writeRange off bytes).kq = s.kq := rfl
@[simp] theorem State.writeRange_kn (s : State) (off : Off) (bytes : List Byte) : (s.writeRange off bytes).kn = s.kn := rfl
@[simp] theorem State.writeRange_kphi (s : State) (off : Off) (bytes : List Byte) : (s.writeRange off bytes).kphi = s.kphi := rfl
@[simp] theorem State.writeRange_kd (s : State) (off : Off) (bytes : List Byte) : (s.writeRange off bytes).kd = s.kd := rfl
@[simp] theorem State.writeRange_keyValid (s : State) (off : Off) (bytes : List Byte) : (s.writeRange off bytes).keyValid = s.keyValid := rfl
@[simp] theorem State.writeRange_discard (s : State) (off : Off) (bytes : List Byte) : (s.writeRange off bytes).discard = s.discard := rfl
@[simp] theorem State.writeRange_buf (s : State) (off : Off) (bytes : List Byte) : (s.writeRange off bytes).buf = memWriteRange s.buf off.toNat bytes := rfl
@[simp] theorem State.writeRange_iterRem (s : State) (off : Off) (bytes : List Byte) : (s.writeRange off bytes).iterRem = s.iterRem := rfl
@[simp] theorem State.writeRange_phase (s : State) (off : Off) (bytes : List Byte) : (s.writeRange off bytes).phase = s.phase := rfl
@[simp] theorem State.writeRange_response (s : State) (off : Off) (bytes : List Byte) : (s.writeRange off bytes).response = s.response := rfl
@[simp] theorem State.writeRange_packets (s : State) (off : Off) (bytes : List Byte) : (s.writeRange off bytes).packets = s.packets := rfl
@[simp] theorem State.writeRange_pins (s : State) (off : Off) (bytes : List Byte) : (s.writeRange off bytes).pins = s.pins := rfl
@[simp] theorem State.writeRange_script (s : State) (off : Off) (bytes : List Byte) : (s.writeRange off bytes).script = s.script := rfl

/-! clearWindow -/

@[simp] theorem State.clearWindow_xs (s : State) : (s.clearWindow).xs = s.xs := rfl
@[simp] theorem State.clearWindow_seeded (s : State) : (s.clearWindow).seeded = s.seeded := rfl
@[simp] theorem State.clearWindow_patValid (s : State) : (s.clearWindow).patValid = s.patValid := rfl
@[simp] theorem State.clearWindow_patLen (s : State) : (s.clearWindow).patLen = s.patLen := rfl
@[simp] theorem State.clearWindow_pat (s : State) : (s.clearWindow).pat = s.pat := rfl
@[simp] theorem State.clearWindow_winLen (s : State) : (s.clearWindow).winLen = 0 := rfl
@[simp] theorem State.clearWindow_win (s : State) : (s.clearWindow).win = Vector.replicate 31 0#8 := rfl
@[simp] theorem State.clearWindow_g (s : State) : (s.clearWindow).g = s.g := rfl
@[simp] theorem State.clearWindow_kp (s : State) : (s.clearWindow).kp = s.kp := rfl
@[simp] theorem State.clearWindow_kq (s : State) : (s.clearWindow).kq = s.kq := rfl
@[simp] theorem State.clearWindow_kn (s : State) : (s.clearWindow).kn = s.kn := rfl
@[simp] theorem State.clearWindow_kphi (s : State) : (s.clearWindow).kphi = s.kphi := rfl
@[simp] theorem State.clearWindow_kd (s : State) : (s.clearWindow).kd = s.kd := rfl
@[simp] theorem State.clearWindow_keyValid (s : State) : (s.clearWindow).keyValid = s.keyValid := rfl
@[simp] theorem State.clearWindow_discard (s : State) : (s.clearWindow).discard = s.discard := rfl
@[simp] theorem State.clearWindow_buf (s : State) : (s.clearWindow).buf = s.buf := rfl
@[simp] theorem State.clearWindow_iterRem (s : State) : (s.clearWindow).iterRem = s.iterRem := rfl
@[simp] theorem State.clearWindow_phase (s : State) : (s.clearWindow).phase = s.phase := rfl
@[simp] theorem State.clearWindow_response (s : State) : (s.clearWindow).response = s.response := rfl
@[simp] theorem State.clearWindow_packets (s : State) : (s.clearWindow).packets = s.packets := rfl
@[simp] theorem State.clearWindow_pins (s : State) : (s.clearWindow).pins = s.pins := rfl
@[simp] theorem State.clearWindow_script (s : State) : (s.clearWindow).script = s.script := rfl

/-! loadPattern -/

@[simp] theorem State.loadPattern_xs (s : State) (bytes : List Byte) : (s.loadPattern bytes).xs = s.xs := rfl
@[simp] theorem State.loadPattern_seeded (s : State) (bytes : List Byte) : (s.loadPattern bytes).seeded = s.seeded := rfl
@[simp] theorem State.loadPattern_patValid (s : State) (bytes : List Byte) : (s.loadPattern bytes).patValid = true := rfl
@[simp] theorem State.loadPattern_patLen (s : State) (bytes : List Byte) : (s.loadPattern bytes).patLen = Fin.ofNat 32 bytes.length := rfl
@[simp] theorem State.loadPattern_pat (s : State) (bytes : List Byte) : (s.loadPattern bytes).pat = entriesOf bytes := rfl
@[simp] theorem State.loadPattern_winLen (s : State) (bytes : List Byte) : (s.loadPattern bytes).winLen = 0 := rfl
@[simp] theorem State.loadPattern_win (s : State) (bytes : List Byte) : (s.loadPattern bytes).win = Vector.replicate 31 0#8 := rfl
@[simp] theorem State.loadPattern_g (s : State) (bytes : List Byte) : (s.loadPattern bytes).g = s.g := rfl
@[simp] theorem State.loadPattern_kp (s : State) (bytes : List Byte) : (s.loadPattern bytes).kp = s.kp := rfl
@[simp] theorem State.loadPattern_kq (s : State) (bytes : List Byte) : (s.loadPattern bytes).kq = s.kq := rfl
@[simp] theorem State.loadPattern_kn (s : State) (bytes : List Byte) : (s.loadPattern bytes).kn = s.kn := rfl
@[simp] theorem State.loadPattern_kphi (s : State) (bytes : List Byte) : (s.loadPattern bytes).kphi = s.kphi := rfl
@[simp] theorem State.loadPattern_kd (s : State) (bytes : List Byte) : (s.loadPattern bytes).kd = s.kd := rfl
@[simp] theorem State.loadPattern_keyValid (s : State) (bytes : List Byte) : (s.loadPattern bytes).keyValid = s.keyValid := rfl
@[simp] theorem State.loadPattern_discard (s : State) (bytes : List Byte) : (s.loadPattern bytes).discard = s.discard := rfl
@[simp] theorem State.loadPattern_buf (s : State) (bytes : List Byte) : (s.loadPattern bytes).buf = s.buf := rfl
@[simp] theorem State.loadPattern_iterRem (s : State) (bytes : List Byte) : (s.loadPattern bytes).iterRem = s.iterRem := rfl
@[simp] theorem State.loadPattern_phase (s : State) (bytes : List Byte) : (s.loadPattern bytes).phase = s.phase := rfl
@[simp] theorem State.loadPattern_response (s : State) (bytes : List Byte) : (s.loadPattern bytes).response = s.response := rfl
@[simp] theorem State.loadPattern_packets (s : State) (bytes : List Byte) : (s.loadPattern bytes).packets = s.packets := rfl
@[simp] theorem State.loadPattern_pins (s : State) (bytes : List Byte) : (s.loadPattern bytes).pins = s.pins := rfl
@[simp] theorem State.loadPattern_script (s : State) (bytes : List Byte) : (s.loadPattern bytes).script = s.script := rfl

/-! setupEntry -/

@[simp] theorem State.setupEntry_xs (s : State) (arg : BitVec 32) : (s.setupEntry arg).xs = s.xs := rfl
@[simp] theorem State.setupEntry_seeded (s : State) (arg : BitVec 32) : (s.setupEntry arg).seeded = s.seeded := rfl
@[simp] theorem State.setupEntry_patValid (s : State) (arg : BitVec 32) : (s.setupEntry arg).patValid = s.patValid := rfl
@[simp] theorem State.setupEntry_patLen (s : State) (arg : BitVec 32) : (s.setupEntry arg).patLen = s.patLen := rfl
@[simp] theorem State.setupEntry_pat (s : State) (arg : BitVec 32) : (s.setupEntry arg).pat = s.pat := rfl
@[simp] theorem State.setupEntry_winLen (s : State) (arg : BitVec 32) : (s.setupEntry arg).winLen = 0 := rfl
@[simp] theorem State.setupEntry_win (s : State) (arg : BitVec 32) : (s.setupEntry arg).win = Vector.replicate 31 0#8 := rfl
@[simp] theorem State.setupEntry_g (s : State) (arg : BitVec 32) : (s.setupEntry arg).g = s.g := rfl
@[simp] theorem State.setupEntry_kp (s : State) (arg : BitVec 32) : (s.setupEntry arg).kp = s.kp := rfl
@[simp] theorem State.setupEntry_kq (s : State) (arg : BitVec 32) : (s.setupEntry arg).kq = s.kq := rfl
@[simp] theorem State.setupEntry_kn (s : State) (arg : BitVec 32) : (s.setupEntry arg).kn = s.kn := rfl
@[simp] theorem State.setupEntry_kphi (s : State) (arg : BitVec 32) : (s.setupEntry arg).kphi = s.kphi := rfl
@[simp] theorem State.setupEntry_kd (s : State) (arg : BitVec 32) : (s.setupEntry arg).kd = s.kd := rfl
@[simp] theorem State.setupEntry_keyValid (s : State) (arg : BitVec 32) : (s.setupEntry arg).keyValid = s.keyValid := rfl
@[simp] theorem State.setupEntry_discard (s : State) (arg : BitVec 32) : (s.setupEntry arg).discard = s.discard := rfl
@[simp] theorem State.setupEntry_buf (s : State) (arg : BitVec 32) : (s.setupEntry arg).buf = s.buf := rfl
@[simp] theorem State.setupEntry_iterRem (s : State) (arg : BitVec 32) : (s.setupEntry arg).iterRem = arg := rfl
@[simp] theorem State.setupEntry_phase (s : State) (arg : BitVec 32) : (s.setupEntry arg).phase = .sampling := rfl
@[simp] theorem State.setupEntry_response (s : State) (arg : BitVec 32) : (s.setupEntry arg).response = none := rfl
@[simp] theorem State.setupEntry_packets (s : State) (arg : BitVec 32) : (s.setupEntry arg).packets = s.packets := rfl
@[simp] theorem State.setupEntry_pins (s : State) (arg : BitVec 32) : (s.setupEntry arg).pins = s.pins := rfl
@[simp] theorem State.setupEntry_script (s : State) (arg : BitVec 32) : (s.setupEntry arg).script = s.script := rfl

/-! cancelSetup -/

@[simp] theorem State.cancelSetup_xs (s : State) : (s.cancelSetup).xs = s.xs := rfl
@[simp] theorem State.cancelSetup_seeded (s : State) : (s.cancelSetup).seeded = s.seeded := rfl
@[simp] theorem State.cancelSetup_patValid (s : State) : (s.cancelSetup).patValid = s.patValid := rfl
@[simp] theorem State.cancelSetup_patLen (s : State) : (s.cancelSetup).patLen = s.patLen := rfl
@[simp] theorem State.cancelSetup_pat (s : State) : (s.cancelSetup).pat = s.pat := rfl
@[simp] theorem State.cancelSetup_winLen (s : State) : (s.cancelSetup).winLen = s.winLen := rfl
@[simp] theorem State.cancelSetup_win (s : State) : (s.cancelSetup).win = s.win := rfl
@[simp] theorem State.cancelSetup_g (s : State) : (s.cancelSetup).g = s.g := rfl
@[simp] theorem State.cancelSetup_kp (s : State) : (s.cancelSetup).kp = s.kp := rfl
@[simp] theorem State.cancelSetup_kq (s : State) : (s.cancelSetup).kq = s.kq := rfl
@[simp] theorem State.cancelSetup_kn (s : State) : (s.cancelSetup).kn = s.kn := rfl
@[simp] theorem State.cancelSetup_kphi (s : State) : (s.cancelSetup).kphi = s.kphi := rfl
@[simp] theorem State.cancelSetup_kd (s : State) : (s.cancelSetup).kd = s.kd := rfl
@[simp] theorem State.cancelSetup_keyValid (s : State) : (s.cancelSetup).keyValid = s.keyValid := rfl
@[simp] theorem State.cancelSetup_discard (s : State) : (s.cancelSetup).discard = true := rfl
@[simp] theorem State.cancelSetup_buf (s : State) : (s.cancelSetup).buf = s.buf := rfl
@[simp] theorem State.cancelSetup_iterRem (s : State) : (s.cancelSetup).iterRem = s.iterRem := rfl
@[simp] theorem State.cancelSetup_phase (s : State) : (s.cancelSetup).phase = .idle := rfl
@[simp] theorem State.cancelSetup_response (s : State) : (s.cancelSetup).response = some { code := Code.bits .cancelled, val := 0#32 } := rfl
@[simp] theorem State.cancelSetup_packets (s : State) : (s.cancelSetup).packets = s.packets := rfl
@[simp] theorem State.cancelSetup_pins (s : State) : (s.cancelSetup).pins = s.pins := rfl
@[simp] theorem State.cancelSetup_script (s : State) : (s.cancelSetup).script = s.script := rfl

/-! setupReseed -/

@[simp] theorem State.setupReseed_xs (s : State) : (s.setupReseed).xs = seedOf (xsBytes Config.reseedDraw s.xs) := (s.setXs_xs _).trans (Eq.refl _)
@[simp] theorem State.setupReseed_seeded (s : State) : (s.setupReseed).seeded = s.seeded := (s.setXs_seeded _).trans (Eq.refl _)
@[simp] theorem State.setupReseed_patValid (s : State) : (s.setupReseed).patValid = s.patValid := (s.setXs_patValid _).trans (Eq.refl _)
@[simp] theorem State.setupReseed_patLen (s : State) : (s.setupReseed).patLen = s.patLen := (s.setXs_patLen _).trans (Eq.refl _)
@[simp] theorem State.setupReseed_pat (s : State) : (s.setupReseed).pat = s.pat := (s.setXs_pat _).trans (Eq.refl _)
@[simp] theorem State.setupReseed_winLen (s : State) : (s.setupReseed).winLen = s.winLen := (s.setXs_winLen _).trans (Eq.refl _)
@[simp] theorem State.setupReseed_win (s : State) : (s.setupReseed).win = s.win := (s.setXs_win _).trans (Eq.refl _)
@[simp] theorem State.setupReseed_g (s : State) : (s.setupReseed).g = s.g := (s.setXs_g _).trans (Eq.refl _)
@[simp] theorem State.setupReseed_kp (s : State) : (s.setupReseed).kp = s.kp := (s.setXs_kp _).trans (Eq.refl _)
@[simp] theorem State.setupReseed_kq (s : State) : (s.setupReseed).kq = s.kq := (s.setXs_kq _).trans (Eq.refl _)
@[simp] theorem State.setupReseed_kn (s : State) : (s.setupReseed).kn = s.kn := (s.setXs_kn _).trans (Eq.refl _)
@[simp] theorem State.setupReseed_kphi (s : State) : (s.setupReseed).kphi = s.kphi := (s.setXs_kphi _).trans (Eq.refl _)
@[simp] theorem State.setupReseed_kd (s : State) : (s.setupReseed).kd = s.kd := (s.setXs_kd _).trans (Eq.refl _)
@[simp] theorem State.setupReseed_keyValid (s : State) : (s.setupReseed).keyValid = s.keyValid := (s.setXs_keyValid _).trans (Eq.refl _)
@[simp] theorem State.setupReseed_discard (s : State) : (s.setupReseed).discard = s.discard := (s.setXs_discard _).trans (Eq.refl _)
@[simp] theorem State.setupReseed_buf (s : State) : (s.setupReseed).buf = s.buf := (s.setXs_buf _).trans (Eq.refl _)
@[simp] theorem State.setupReseed_iterRem (s : State) : (s.setupReseed).iterRem = s.iterRem := (s.setXs_iterRem _).trans (Eq.refl _)
@[simp] theorem State.setupReseed_phase (s : State) : (s.setupReseed).phase = s.phase := (s.setXs_phase _).trans (Eq.refl _)
@[simp] theorem State.setupReseed_response (s : State) : (s.setupReseed).response = s.response := (s.setXs_response _).trans (Eq.refl _)
@[simp] theorem State.setupReseed_packets (s : State) : (s.setupReseed).packets = s.packets := (s.setXs_packets _).trans (Eq.refl _)
@[simp] theorem State.setupReseed_pins (s : State) : (s.setupReseed).pins = s.pins := (s.setXs_pins _).trans (Eq.refl _)
@[simp] theorem State.setupReseed_script (s : State) : (s.setupReseed).script = s.script := (s.setXs_script _).trans (Eq.refl _)

/-! commitKey -/

@[simp] theorem State.commitKey_xs (s : State) (k : KeyMaterial) : (s.commitKey k).xs = s.xs := rfl
@[simp] theorem State.commitKey_seeded (s : State) (k : KeyMaterial) : (s.commitKey k).seeded = s.seeded := rfl
@[simp] theorem State.commitKey_patValid (s : State) (k : KeyMaterial) : (s.commitKey k).patValid = s.patValid := rfl
@[simp] theorem State.commitKey_patLen (s : State) (k : KeyMaterial) : (s.commitKey k).patLen = s.patLen := rfl
@[simp] theorem State.commitKey_pat (s : State) (k : KeyMaterial) : (s.commitKey k).pat = s.pat := rfl
@[simp] theorem State.commitKey_winLen (s : State) (k : KeyMaterial) : (s.commitKey k).winLen = s.winLen := rfl
@[simp] theorem State.commitKey_win (s : State) (k : KeyMaterial) : (s.commitKey k).win = s.win := rfl
@[simp] theorem State.commitKey_g (s : State) (k : KeyMaterial) : (s.commitKey k).g = s.g := rfl
@[simp] theorem State.commitKey_kp (s : State) (k : KeyMaterial) : (s.commitKey k).kp = k.p := rfl
@[simp] theorem State.commitKey_kq (s : State) (k : KeyMaterial) : (s.commitKey k).kq = k.q := rfl
@[simp] theorem State.commitKey_kn (s : State) (k : KeyMaterial) : (s.commitKey k).kn = k.n := rfl
@[simp] theorem State.commitKey_kphi (s : State) (k : KeyMaterial) : (s.commitKey k).kphi = k.phi := rfl
@[simp] theorem State.commitKey_kd (s : State) (k : KeyMaterial) : (s.commitKey k).kd = k.d := rfl
@[simp] theorem State.commitKey_keyValid (s : State) (k : KeyMaterial) : (s.commitKey k).keyValid = true := rfl
@[simp] theorem State.commitKey_discard (s : State) (k : KeyMaterial) : (s.commitKey k).discard = s.discard := rfl
@[simp] theorem State.commitKey_buf (s : State) (k : KeyMaterial) : (s.commitKey k).buf = s.buf := rfl
@[simp] theorem State.commitKey_iterRem (s : State) (k : KeyMaterial) : (s.commitKey k).iterRem = s.iterRem := rfl
@[simp] theorem State.commitKey_phase (s : State) (k : KeyMaterial) : (s.commitKey k).phase = s.phase := rfl
@[simp] theorem State.commitKey_response (s : State) (k : KeyMaterial) : (s.commitKey k).response = s.response := rfl
@[simp] theorem State.commitKey_packets (s : State) (k : KeyMaterial) : (s.commitKey k).packets = s.packets := rfl
@[simp] theorem State.commitKey_pins (s : State) (k : KeyMaterial) : (s.commitKey k).pins = s.pins := rfl
@[simp] theorem State.commitKey_script (s : State) (k : KeyMaterial) : (s.commitKey k).script = s.script := rfl

/-! resetBlock -/

@[simp] theorem State.resetBlock_xs (s : State) : (s.resetBlock).xs = State.reset.xs := rfl
@[simp] theorem State.resetBlock_seeded (s : State) : (s.resetBlock).seeded = State.reset.seeded := rfl
@[simp] theorem State.resetBlock_patValid (s : State) : (s.resetBlock).patValid = State.reset.patValid := rfl
@[simp] theorem State.resetBlock_patLen (s : State) : (s.resetBlock).patLen = State.reset.patLen := rfl
@[simp] theorem State.resetBlock_pat (s : State) : (s.resetBlock).pat = State.reset.pat := rfl
@[simp] theorem State.resetBlock_winLen (s : State) : (s.resetBlock).winLen = State.reset.winLen := rfl
@[simp] theorem State.resetBlock_win (s : State) : (s.resetBlock).win = State.reset.win := rfl
@[simp] theorem State.resetBlock_g (s : State) : (s.resetBlock).g = State.reset.g := rfl
@[simp] theorem State.resetBlock_kp (s : State) : (s.resetBlock).kp = State.reset.kp := rfl
@[simp] theorem State.resetBlock_kq (s : State) : (s.resetBlock).kq = State.reset.kq := rfl
@[simp] theorem State.resetBlock_kn (s : State) : (s.resetBlock).kn = State.reset.kn := rfl
@[simp] theorem State.resetBlock_kphi (s : State) : (s.resetBlock).kphi = State.reset.kphi := rfl
@[simp] theorem State.resetBlock_kd (s : State) : (s.resetBlock).kd = State.reset.kd := rfl
@[simp] theorem State.resetBlock_keyValid (s : State) : (s.resetBlock).keyValid = State.reset.keyValid := rfl
@[simp] theorem State.resetBlock_discard (s : State) : (s.resetBlock).discard = State.reset.discard := rfl
@[simp] theorem State.resetBlock_buf (s : State) : (s.resetBlock).buf = State.reset.buf := rfl
@[simp] theorem State.resetBlock_iterRem (s : State) : (s.resetBlock).iterRem = State.reset.iterRem := rfl
@[simp] theorem State.resetBlock_phase (s : State) : (s.resetBlock).phase = State.reset.phase := rfl
@[simp] theorem State.resetBlock_response (s : State) : (s.resetBlock).response = State.reset.response := rfl
@[simp] theorem State.resetBlock_packets (s : State) : (s.resetBlock).packets = s.packets := rfl
@[simp] theorem State.resetBlock_pins (s : State) : (s.resetBlock).pins = s.pins := rfl
@[simp] theorem State.resetBlock_script (s : State) : (s.resetBlock).script = s.script := rfl

/-! tick -/

@[simp] theorem State.tick_xs (s : State) : (s.tick).xs = s.xs := rfl
@[simp] theorem State.tick_seeded (s : State) : (s.tick).seeded = s.seeded := rfl
@[simp] theorem State.tick_patValid (s : State) : (s.tick).patValid = s.patValid := rfl
@[simp] theorem State.tick_patLen (s : State) : (s.tick).patLen = s.patLen := rfl
@[simp] theorem State.tick_pat (s : State) : (s.tick).pat = s.pat := rfl
@[simp] theorem State.tick_winLen (s : State) : (s.tick).winLen = s.winLen := rfl
@[simp] theorem State.tick_win (s : State) : (s.tick).win = s.win := rfl
@[simp] theorem State.tick_g (s : State) : (s.tick).g = s.g := rfl
@[simp] theorem State.tick_kp (s : State) : (s.tick).kp = s.kp := rfl
@[simp] theorem State.tick_kq (s : State) : (s.tick).kq = s.kq := rfl
@[simp] theorem State.tick_kn (s : State) : (s.tick).kn = s.kn := rfl
@[simp] theorem State.tick_kphi (s : State) : (s.tick).kphi = s.kphi := rfl
@[simp] theorem State.tick_kd (s : State) : (s.tick).kd = s.kd := rfl
@[simp] theorem State.tick_keyValid (s : State) : (s.tick).keyValid = s.keyValid := rfl
@[simp] theorem State.tick_discard (s : State) : (s.tick).discard = s.discard := rfl
@[simp] theorem State.tick_buf (s : State) : (s.tick).buf = s.buf := rfl
@[simp] theorem State.tick_iterRem (s : State) : (s.tick).iterRem = s.iterRem := rfl
@[simp] theorem State.tick_phase (s : State) : (s.tick).phase = s.phase := rfl
@[simp] theorem State.tick_response (s : State) : (s.tick).response = s.response := rfl
@[simp] theorem State.tick_packets (s : State) : (s.tick).packets = s.packets := rfl
@[simp] theorem State.tick_pins (s : State) : (s.tick).pins = s.script.headD s.pins := rfl
@[simp] theorem State.tick_script (s : State) : (s.tick).script = s.script.tail := rfl

/-! accept -/

@[simp] theorem State.accept_xs (s : State) (rest : List Packet) : (s.accept rest).xs = s.xs := rfl
@[simp] theorem State.accept_seeded (s : State) (rest : List Packet) : (s.accept rest).seeded = s.seeded := rfl
@[simp] theorem State.accept_patValid (s : State) (rest : List Packet) : (s.accept rest).patValid = s.patValid := rfl
@[simp] theorem State.accept_patLen (s : State) (rest : List Packet) : (s.accept rest).patLen = s.patLen := rfl
@[simp] theorem State.accept_pat (s : State) (rest : List Packet) : (s.accept rest).pat = s.pat := rfl
@[simp] theorem State.accept_winLen (s : State) (rest : List Packet) : (s.accept rest).winLen = s.winLen := rfl
@[simp] theorem State.accept_win (s : State) (rest : List Packet) : (s.accept rest).win = s.win := rfl
@[simp] theorem State.accept_g (s : State) (rest : List Packet) : (s.accept rest).g = s.g := rfl
@[simp] theorem State.accept_kp (s : State) (rest : List Packet) : (s.accept rest).kp = s.kp := rfl
@[simp] theorem State.accept_kq (s : State) (rest : List Packet) : (s.accept rest).kq = s.kq := rfl
@[simp] theorem State.accept_kn (s : State) (rest : List Packet) : (s.accept rest).kn = s.kn := rfl
@[simp] theorem State.accept_kphi (s : State) (rest : List Packet) : (s.accept rest).kphi = s.kphi := rfl
@[simp] theorem State.accept_kd (s : State) (rest : List Packet) : (s.accept rest).kd = s.kd := rfl
@[simp] theorem State.accept_keyValid (s : State) (rest : List Packet) : (s.accept rest).keyValid = s.keyValid := rfl
@[simp] theorem State.accept_discard (s : State) (rest : List Packet) : (s.accept rest).discard = s.discard := rfl
@[simp] theorem State.accept_buf (s : State) (rest : List Packet) : (s.accept rest).buf = s.buf := rfl
@[simp] theorem State.accept_iterRem (s : State) (rest : List Packet) : (s.accept rest).iterRem = s.iterRem := rfl
@[simp] theorem State.accept_phase (s : State) (rest : List Packet) : (s.accept rest).phase = s.phase := rfl
@[simp] theorem State.accept_response (s : State) (rest : List Packet) : (s.accept rest).response = none := rfl
@[simp] theorem State.accept_packets (s : State) (rest : List Packet) : (s.accept rest).packets = rest := rfl
@[simp] theorem State.accept_pins (s : State) (rest : List Packet) : (s.accept rest).pins = s.pins := rfl
@[simp] theorem State.accept_script (s : State) (rest : List Packet) : (s.accept rest).script = s.script := rfl

/-! offerFirst -/

@[simp] theorem State.offerFirst_xs (s : State) (p : Packet) : (s.offerFirst p).xs = s.xs := rfl
@[simp] theorem State.offerFirst_seeded (s : State) (p : Packet) : (s.offerFirst p).seeded = s.seeded := rfl
@[simp] theorem State.offerFirst_patValid (s : State) (p : Packet) : (s.offerFirst p).patValid = s.patValid := rfl
@[simp] theorem State.offerFirst_patLen (s : State) (p : Packet) : (s.offerFirst p).patLen = s.patLen := rfl
@[simp] theorem State.offerFirst_pat (s : State) (p : Packet) : (s.offerFirst p).pat = s.pat := rfl
@[simp] theorem State.offerFirst_winLen (s : State) (p : Packet) : (s.offerFirst p).winLen = s.winLen := rfl
@[simp] theorem State.offerFirst_win (s : State) (p : Packet) : (s.offerFirst p).win = s.win := rfl
@[simp] theorem State.offerFirst_g (s : State) (p : Packet) : (s.offerFirst p).g = s.g := rfl
@[simp] theorem State.offerFirst_kp (s : State) (p : Packet) : (s.offerFirst p).kp = s.kp := rfl
@[simp] theorem State.offerFirst_kq (s : State) (p : Packet) : (s.offerFirst p).kq = s.kq := rfl
@[simp] theorem State.offerFirst_kn (s : State) (p : Packet) : (s.offerFirst p).kn = s.kn := rfl
@[simp] theorem State.offerFirst_kphi (s : State) (p : Packet) : (s.offerFirst p).kphi = s.kphi := rfl
@[simp] theorem State.offerFirst_kd (s : State) (p : Packet) : (s.offerFirst p).kd = s.kd := rfl
@[simp] theorem State.offerFirst_keyValid (s : State) (p : Packet) : (s.offerFirst p).keyValid = s.keyValid := rfl
@[simp] theorem State.offerFirst_discard (s : State) (p : Packet) : (s.offerFirst p).discard = s.discard := rfl
@[simp] theorem State.offerFirst_buf (s : State) (p : Packet) : (s.offerFirst p).buf = s.buf := rfl
@[simp] theorem State.offerFirst_iterRem (s : State) (p : Packet) : (s.offerFirst p).iterRem = s.iterRem := rfl
@[simp] theorem State.offerFirst_phase (s : State) (p : Packet) : (s.offerFirst p).phase = .idle := rfl
@[simp] theorem State.offerFirst_response (s : State) (p : Packet) : (s.offerFirst p).response = s.response := rfl
@[simp] theorem State.offerFirst_packets (s : State) (p : Packet) : (s.offerFirst p).packets = p :: s.packets := rfl
@[simp] theorem State.offerFirst_pins (s : State) (p : Packet) : (s.offerFirst p).pins = { s.pins with hardReset := false } := rfl
@[simp] theorem State.offerFirst_script (s : State) (p : Packet) : (s.offerFirst p).script = s.script := rfl

/-! swPush: the fields it leaves alone. -/

@[simp] theorem State.swPush_xs (s : State) (b : Byte) : (s.swPush b).xs = s.xs := by
  unfold State.swPush; split <;> rfl
@[simp] theorem State.swPush_seeded (s : State) (b : Byte) : (s.swPush b).seeded = s.seeded := by
  unfold State.swPush; split <;> rfl
@[simp] theorem State.swPush_patValid (s : State) (b : Byte) : (s.swPush b).patValid = s.patValid := by
  unfold State.swPush; split <;> rfl
@[simp] theorem State.swPush_patLen (s : State) (b : Byte) : (s.swPush b).patLen = s.patLen := by
  unfold State.swPush; split <;> rfl
@[simp] theorem State.swPush_pat (s : State) (b : Byte) : (s.swPush b).pat = s.pat := by
  unfold State.swPush; split <;> rfl
@[simp] theorem State.swPush_g (s : State) (b : Byte) : (s.swPush b).g = s.g := by
  unfold State.swPush; split <;> rfl
@[simp] theorem State.swPush_kp (s : State) (b : Byte) : (s.swPush b).kp = s.kp := by
  unfold State.swPush; split <;> rfl
@[simp] theorem State.swPush_kq (s : State) (b : Byte) : (s.swPush b).kq = s.kq := by
  unfold State.swPush; split <;> rfl
@[simp] theorem State.swPush_kn (s : State) (b : Byte) : (s.swPush b).kn = s.kn := by
  unfold State.swPush; split <;> rfl
@[simp] theorem State.swPush_kphi (s : State) (b : Byte) : (s.swPush b).kphi = s.kphi := by
  unfold State.swPush; split <;> rfl
@[simp] theorem State.swPush_kd (s : State) (b : Byte) : (s.swPush b).kd = s.kd := by
  unfold State.swPush; split <;> rfl
@[simp] theorem State.swPush_keyValid (s : State) (b : Byte) : (s.swPush b).keyValid = s.keyValid := by
  unfold State.swPush; split <;> rfl
@[simp] theorem State.swPush_discard (s : State) (b : Byte) : (s.swPush b).discard = s.discard := by
  unfold State.swPush; split <;> rfl
@[simp] theorem State.swPush_buf (s : State) (b : Byte) : (s.swPush b).buf = s.buf := by
  unfold State.swPush; split <;> rfl
@[simp] theorem State.swPush_iterRem (s : State) (b : Byte) : (s.swPush b).iterRem = s.iterRem := by
  unfold State.swPush; split <;> rfl
@[simp] theorem State.swPush_phase (s : State) (b : Byte) : (s.swPush b).phase = s.phase := by
  unfold State.swPush; split <;> rfl
@[simp] theorem State.swPush_response (s : State) (b : Byte) : (s.swPush b).response = s.response := by
  unfold State.swPush; split <;> rfl
@[simp] theorem State.swPush_packets (s : State) (b : Byte) : (s.swPush b).packets = s.packets := by
  unfold State.swPush; split <;> rfl
@[simp] theorem State.swPush_pins (s : State) (b : Byte) : (s.swPush b).pins = s.pins := by
  unfold State.swPush; split <;> rfl
@[simp] theorem State.swPush_script (s : State) (b : Byte) : (s.swPush b).script = s.script := by
  unfold State.swPush; split <;> rfl

/-! drawAndPush: the generator steps once; the window takes the byte. -/

@[simp] theorem State.drawAndPush_xs (s : State) : s.drawAndPush.xs = xsStep s.xs := by
  simp [State.drawAndPush]
@[simp] theorem State.drawAndPush_seeded (s : State) : s.drawAndPush.seeded = s.seeded := by
  simp [State.drawAndPush]
@[simp] theorem State.drawAndPush_patValid (s : State) : s.drawAndPush.patValid = s.patValid := by
  simp [State.drawAndPush]
@[simp] theorem State.drawAndPush_patLen (s : State) : s.drawAndPush.patLen = s.patLen := by
  simp [State.drawAndPush]
@[simp] theorem State.drawAndPush_pat (s : State) : s.drawAndPush.pat = s.pat := by
  simp [State.drawAndPush]
@[simp] theorem State.drawAndPush_g (s : State) : s.drawAndPush.g = s.g := by
  simp [State.drawAndPush]
@[simp] theorem State.drawAndPush_kp (s : State) : s.drawAndPush.kp = s.kp := by
  simp [State.drawAndPush]
@[simp] theorem State.drawAndPush_kq (s : State) : s.drawAndPush.kq = s.kq := by
  simp [State.drawAndPush]
@[simp] theorem State.drawAndPush_kn (s : State) : s.drawAndPush.kn = s.kn := by
  simp [State.drawAndPush]
@[simp] theorem State.drawAndPush_kphi (s : State) : s.drawAndPush.kphi = s.kphi := by
  simp [State.drawAndPush]
@[simp] theorem State.drawAndPush_kd (s : State) : s.drawAndPush.kd = s.kd := by
  simp [State.drawAndPush]
@[simp] theorem State.drawAndPush_keyValid (s : State) : s.drawAndPush.keyValid = s.keyValid := by
  simp [State.drawAndPush]
@[simp] theorem State.drawAndPush_discard (s : State) : s.drawAndPush.discard = s.discard := by
  simp [State.drawAndPush]
@[simp] theorem State.drawAndPush_buf (s : State) : s.drawAndPush.buf = s.buf := by
  simp [State.drawAndPush]
@[simp] theorem State.drawAndPush_iterRem (s : State) : s.drawAndPush.iterRem = s.iterRem := by
  simp [State.drawAndPush]
@[simp] theorem State.drawAndPush_phase (s : State) : s.drawAndPush.phase = s.phase := by
  simp [State.drawAndPush]
@[simp] theorem State.drawAndPush_response (s : State) : s.drawAndPush.response = s.response := by
  simp [State.drawAndPush]
@[simp] theorem State.drawAndPush_packets (s : State) : s.drawAndPush.packets = s.packets := by
  simp [State.drawAndPush]
@[simp] theorem State.drawAndPush_pins (s : State) : s.drawAndPush.pins = s.pins := by
  simp [State.drawAndPush]
@[simp] theorem State.drawAndPush_script (s : State) : s.drawAndPush.script = s.script := by
  simp [State.drawAndPush]

/-! byteStep: only XS, the window and the phase change. -/

@[simp] theorem State.byteStep_xs (s : State) : s.byteStep.xs = xsStep s.xs := by
  unfold State.byteStep; split <;> simp
@[simp] theorem State.byteStep_seeded (s : State) : s.byteStep.seeded = s.seeded := by
  unfold State.byteStep; split <;> simp
@[simp] theorem State.byteStep_patValid (s : State) : s.byteStep.patValid = s.patValid := by
  unfold State.byteStep; split <;> simp
@[simp] theorem State.byteStep_patLen (s : State) : s.byteStep.patLen = s.patLen := by
  unfold State.byteStep; split <;> simp
@[simp] theorem State.byteStep_pat (s : State) : s.byteStep.pat = s.pat := by
  unfold State.byteStep; split <;> simp
@[simp] theorem State.byteStep_winLen (s : State) : s.byteStep.winLen = s.drawAndPush.winLen := by
  unfold State.byteStep; split <;> simp
@[simp] theorem State.byteStep_win (s : State) : s.byteStep.win = s.drawAndPush.win := by
  unfold State.byteStep; split <;> simp
@[simp] theorem State.byteStep_g (s : State) : s.byteStep.g = s.g := by
  unfold State.byteStep; split <;> simp
@[simp] theorem State.byteStep_kp (s : State) : s.byteStep.kp = s.kp := by
  unfold State.byteStep; split <;> simp
@[simp] theorem State.byteStep_kq (s : State) : s.byteStep.kq = s.kq := by
  unfold State.byteStep; split <;> simp
@[simp] theorem State.byteStep_kn (s : State) : s.byteStep.kn = s.kn := by
  unfold State.byteStep; split <;> simp
@[simp] theorem State.byteStep_kphi (s : State) : s.byteStep.kphi = s.kphi := by
  unfold State.byteStep; split <;> simp
@[simp] theorem State.byteStep_kd (s : State) : s.byteStep.kd = s.kd := by
  unfold State.byteStep; split <;> simp
@[simp] theorem State.byteStep_keyValid (s : State) : s.byteStep.keyValid = s.keyValid := by
  unfold State.byteStep; split <;> simp
@[simp] theorem State.byteStep_discard (s : State) : s.byteStep.discard = s.discard := by
  unfold State.byteStep; split <;> simp
@[simp] theorem State.byteStep_buf (s : State) : s.byteStep.buf = s.buf := by
  unfold State.byteStep; split <;> simp
@[simp] theorem State.byteStep_iterRem (s : State) : s.byteStep.iterRem = s.iterRem := by
  unfold State.byteStep; split <;> simp
@[simp] theorem State.byteStep_response (s : State) : s.byteStep.response = s.response := by
  unfold State.byteStep; split <;> simp
@[simp] theorem State.byteStep_packets (s : State) : s.byteStep.packets = s.packets := by
  unfold State.byteStep; split <;> simp
@[simp] theorem State.byteStep_pins (s : State) : s.byteStep.pins = s.pins := by
  unfold State.byteStep; split <;> simp
@[simp] theorem State.byteStep_script (s : State) : s.byteStep.script = s.script := by
  unfold State.byteStep; split <;> simp

/-! nextIteration: ITER_REM, the phase and the response change. -/

@[simp] theorem State.nextIteration_xs (s : State) : s.nextIteration.xs = s.xs := by
  unfold State.nextIteration; split <;> rfl
@[simp] theorem State.nextIteration_seeded (s : State) : s.nextIteration.seeded = s.seeded := by
  unfold State.nextIteration; split <;> rfl
@[simp] theorem State.nextIteration_patValid (s : State) : s.nextIteration.patValid = s.patValid := by
  unfold State.nextIteration; split <;> rfl
@[simp] theorem State.nextIteration_patLen (s : State) : s.nextIteration.patLen = s.patLen := by
  unfold State.nextIteration; split <;> rfl
@[simp] theorem State.nextIteration_pat (s : State) : s.nextIteration.pat = s.pat := by
  unfold State.nextIteration; split <;> rfl
@[simp] theorem State.nextIteration_winLen (s : State) : s.nextIteration.winLen = s.winLen := by
  unfold State.nextIteration; split <;> rfl
@[simp] theorem State.nextIteration_win (s : State) : s.nextIteration.win = s.win := by
  unfold State.nextIteration; split <;> rfl
@[simp] theorem State.nextIteration_g (s : State) : s.nextIteration.g = s.g := by
  unfold State.nextIteration; split <;> rfl
@[simp] theorem State.nextIteration_kp (s : State) : s.nextIteration.kp = s.kp := by
  unfold State.nextIteration; split <;> rfl
@[simp] theorem State.nextIteration_kq (s : State) : s.nextIteration.kq = s.kq := by
  unfold State.nextIteration; split <;> rfl
@[simp] theorem State.nextIteration_kn (s : State) : s.nextIteration.kn = s.kn := by
  unfold State.nextIteration; split <;> rfl
@[simp] theorem State.nextIteration_kphi (s : State) : s.nextIteration.kphi = s.kphi := by
  unfold State.nextIteration; split <;> rfl
@[simp] theorem State.nextIteration_kd (s : State) : s.nextIteration.kd = s.kd := by
  unfold State.nextIteration; split <;> rfl
@[simp] theorem State.nextIteration_keyValid (s : State) : s.nextIteration.keyValid = s.keyValid := by
  unfold State.nextIteration; split <;> rfl
@[simp] theorem State.nextIteration_discard (s : State) : s.nextIteration.discard = s.discard := by
  unfold State.nextIteration; split <;> rfl
@[simp] theorem State.nextIteration_buf (s : State) : s.nextIteration.buf = s.buf := by
  unfold State.nextIteration; split <;> rfl
@[simp] theorem State.nextIteration_iterRem (s : State) : s.nextIteration.iterRem = s.iterRem - 1#32 := by
  unfold State.nextIteration; split <;> rfl
@[simp] theorem State.nextIteration_packets (s : State) : s.nextIteration.packets = s.packets := by
  unfold State.nextIteration; split <;> rfl
@[simp] theorem State.nextIteration_pins (s : State) : s.nextIteration.pins = s.pins := by
  unfold State.nextIteration; split <;> rfl
@[simp] theorem State.nextIteration_script (s : State) : s.nextIteration.script = s.script := by
  unfold State.nextIteration; split <;> rfl

/-! reseedAndNext: XS, the window, ITER_REM, the phase and the response change. -/

@[simp] theorem State.reseedAndNext_xs (s : State) : s.reseedAndNext.xs = seedOf (xsBytes Config.reseedDraw s.xs) :=
  (State.nextIteration_xs _).trans ((State.clearWindow_xs _).trans s.setupReseed_xs)
@[simp] theorem State.reseedAndNext_seeded (s : State) : s.reseedAndNext.seeded = s.seeded :=
  (State.nextIteration_seeded _).trans ((State.clearWindow_seeded _).trans s.setupReseed_seeded)
@[simp] theorem State.reseedAndNext_patValid (s : State) : s.reseedAndNext.patValid = s.patValid :=
  (State.nextIteration_patValid _).trans ((State.clearWindow_patValid _).trans s.setupReseed_patValid)
@[simp] theorem State.reseedAndNext_patLen (s : State) : s.reseedAndNext.patLen = s.patLen :=
  (State.nextIteration_patLen _).trans ((State.clearWindow_patLen _).trans s.setupReseed_patLen)
@[simp] theorem State.reseedAndNext_pat (s : State) : s.reseedAndNext.pat = s.pat :=
  (State.nextIteration_pat _).trans ((State.clearWindow_pat _).trans s.setupReseed_pat)
@[simp] theorem State.reseedAndNext_winLen (s : State) : s.reseedAndNext.winLen = 0 :=
  (State.nextIteration_winLen _).trans (State.clearWindow_winLen _)
@[simp] theorem State.reseedAndNext_win (s : State) : s.reseedAndNext.win = Vector.replicate 31 0#8 :=
  (State.nextIteration_win _).trans (State.clearWindow_win _)
@[simp] theorem State.reseedAndNext_g (s : State) : s.reseedAndNext.g = s.g :=
  (State.nextIteration_g _).trans ((State.clearWindow_g _).trans s.setupReseed_g)
@[simp] theorem State.reseedAndNext_kp (s : State) : s.reseedAndNext.kp = s.kp :=
  (State.nextIteration_kp _).trans ((State.clearWindow_kp _).trans s.setupReseed_kp)
@[simp] theorem State.reseedAndNext_kq (s : State) : s.reseedAndNext.kq = s.kq :=
  (State.nextIteration_kq _).trans ((State.clearWindow_kq _).trans s.setupReseed_kq)
@[simp] theorem State.reseedAndNext_kn (s : State) : s.reseedAndNext.kn = s.kn :=
  (State.nextIteration_kn _).trans ((State.clearWindow_kn _).trans s.setupReseed_kn)
@[simp] theorem State.reseedAndNext_kphi (s : State) : s.reseedAndNext.kphi = s.kphi :=
  (State.nextIteration_kphi _).trans ((State.clearWindow_kphi _).trans s.setupReseed_kphi)
@[simp] theorem State.reseedAndNext_kd (s : State) : s.reseedAndNext.kd = s.kd :=
  (State.nextIteration_kd _).trans ((State.clearWindow_kd _).trans s.setupReseed_kd)
@[simp] theorem State.reseedAndNext_keyValid (s : State) : s.reseedAndNext.keyValid = s.keyValid :=
  (State.nextIteration_keyValid _).trans ((State.clearWindow_keyValid _).trans s.setupReseed_keyValid)
@[simp] theorem State.reseedAndNext_discard (s : State) : s.reseedAndNext.discard = s.discard :=
  (State.nextIteration_discard _).trans ((State.clearWindow_discard _).trans s.setupReseed_discard)
@[simp] theorem State.reseedAndNext_buf (s : State) : s.reseedAndNext.buf = s.buf :=
  (State.nextIteration_buf _).trans ((State.clearWindow_buf _).trans s.setupReseed_buf)
@[simp] theorem State.reseedAndNext_iterRem (s : State) : s.reseedAndNext.iterRem = s.iterRem - 1#32 :=
  (State.nextIteration_iterRem _).trans (congrArg (· - 1#32) ((State.clearWindow_iterRem _).trans s.setupReseed_iterRem))
@[simp] theorem State.reseedAndNext_packets (s : State) : s.reseedAndNext.packets = s.packets :=
  (State.nextIteration_packets _).trans ((State.clearWindow_packets _).trans s.setupReseed_packets)
@[simp] theorem State.reseedAndNext_pins (s : State) : s.reseedAndNext.pins = s.pins :=
  (State.nextIteration_pins _).trans ((State.clearWindow_pins _).trans s.setupReseed_pins)
@[simp] theorem State.reseedAndNext_script (s : State) : s.reseedAndNext.script = s.script :=
  (State.nextIteration_script _).trans ((State.clearWindow_script _).trans s.setupReseed_script)


/-! General registers. -/

@[simp] theorem State.setReg_reg_same (s : State) (r : Reg) (v : Nat) : (s.setReg r v).reg r = v := by
  simp [State.reg, State.setReg]

theorem State.setReg_reg_other (s : State) (r r' : Reg) (v : Nat) (h : r ≠ r') : (s.setReg r v).reg r' = s.reg r' := by
  have : r.val ≠ r'.val := fun e => h (Fin.ext e)
  simp [State.reg, State.setReg, this]

/-- Reading a general register after a write: the value written in the one register, the old value in the others. -/
theorem State.setReg_reg (s : State) (r r' : Reg) (v : Nat) :
    (s.setReg r v).reg r' = if r = r' then v else s.reg r' := by
  split
  · next h => subst h; simp
  · next h => exact s.setReg_reg_other r r' v h

/-- `respond` is the state with the response on the port. -/
theorem State.respond_eq_answered (s : State) (c : Code) (v : BitVec 32) : s.respond c v = s.answered c v := rfl

end Sys2Proof.Machine
end

