-- ==== Sys2Proof/Laws/Ops.lean ====
section
/-! SUPPORT. One lemma for each shared operation of the machine, saying once everything it can do. -/

namespace Sys2Proof.Machine

/-! Big-endian values (00_scope.md R17). -/

@[simp] theorem be_nil : be [] = 0 := rfl

theorem be_concat (s : List Byte) (b : Byte) : be (s ++ [b]) = be s * 256 + b.toNat := by
  simp [be, List.foldl_append]

theorem be_append (s t : List Byte) : be (s ++ t) = be s * 256 ^ t.length + be t := by
  induction t using List.reverseRecOn with
  | nil => simp
  | append_singleton t b ih =>
    rw [← List.append_assoc, be_concat, ih, be_concat]
    simp only [List.length_append, List.length_singleton, pow_succ]
    ring

@[simp] theorem be_singleton (b : Byte) : be [b] = b.toNat := by simp [be]

theorem be_cons (b : Byte) (s : List Byte) : be (b :: s) = b.toNat * 256 ^ s.length + be s := by
  rw [show b :: s = [b] ++ s from rfl, be_append, be_singleton]

theorem be_lt (s : List Byte) : be s < 256 ^ s.length := by
  induction s with
  | nil => simp
  | cons b s ih =>
    rw [be_cons, List.length_cons, pow_succ]
    have := b.isLt
    nlinarith

@[simp] theorem tobe_length (v n : Nat) : (tobe v n).length = n := by
  induction n with
  | zero => rfl
  | succ n ih => simp [tobe, ih]

theorem tobe_getElem (v n i : Nat) (h : i < (tobe v n).length) :
    (tobe v n)[i] = BitVec.ofNat 8 (v / 256 ^ (n - 1 - i)) := by
  induction n generalizing i with
  | zero => simp at h
  | succ n ih =>
    cases i with
    | zero => simp [tobe]
    | succ i =>
      simp only [tobe, List.getElem_cons_succ]
      rw [ih]
      congr 3
      omega

/-- The bytes of a value keep the value modulo 256 ^ n; all of it where it fits. -/
theorem be_tobe (v n : Nat) : be (tobe v n) = v % 256 ^ n := by
  induction n with
  | zero => simp [tobe, Nat.mod_one]
  | succ n ih =>
    rw [tobe, be_cons, ih, tobe_length, BitVec.toNat_ofNat, show (2 : Nat) ^ 8 = 256 from rfl, pow_succ, Nat.mod_mul,
      Nat.add_comm, Nat.mul_comm (_ % 256)]

/-- The sum of 00_scope.md R17 is the value of the bytes read from the range. -/
theorem State.rangeValue_eq_be (s : State) (off len : Nat) : s.rangeValue off len = be (memReadRange s.buf off len) := by
  unfold State.rangeValue
  induction len generalizing off with
  | zero => rfl
  | succ n ih =>
    rw [memReadRange, be_cons, memReadRange_length, ← ih (off + 1), List.range_succ_eq_map, List.map_cons, List.sum_cons,
      List.map_map]
    congr 3
    funext i
    simp only [Function.comp, Nat.succ_eq_add_one]
    rw [show off + (i + 1) = off + 1 + i by omega, show n + 1 - 1 - (i + 1) = n - 1 - i by omega]

/-- Reading back a range just written gives the bytes written. -/
theorem memReadRange_memWriteRange (m : Memory) (off : Nat) (bytes : List Byte) :
    memReadRange (memWriteRange m off bytes) off bytes.length = bytes := by
  apply List.ext_getElem
  · simp
  · intro i h1 h2
    rw [memReadRange_getElem, memRead_memWriteRange, if_pos ⟨Nat.le_add_right _ _, by omega⟩, Nat.add_sub_cancel_left]
    simp [List.getD, h2]

/-! Streams (40_xorshift.md R116, R117). -/

@[simp] theorem xsBytes_length (n : Nat) (x : U64) : (xsBytes n x).length = n := by
  induction n generalizing x with
  | zero => rfl
  | succ n ih => simp [xsBytes, ih]

theorem xsIter_succ (n : Nat) (x : U64) : xsIter (n + 1) x = xsStep (xsIter n x) := by
  induction n generalizing x with
  | zero => rfl
  | succ n ih => rw [xsIter, ih]; rfl

theorem xsIter_eq_iterate (n : Nat) (x : U64) : xsIter n x = xsStep^[n] x := by
  induction n generalizing x with
  | zero => rfl
  | succ n ih => rw [xsIter, ih]; rfl

theorem xsBytes_getElem (n : Nat) (x : U64) (i : Nat) (h : i < (xsBytes n x).length) :
    (xsBytes n x)[i] = xsOut (xsIter (i + 1) x) := by
  induction n generalizing x i with
  | zero => simp at h
  | succ n ih =>
    cases i with
    | zero => rfl
    | succ i =>
      simp only [xsBytes, List.getElem_cons_succ]
      rw [ih]
      rfl

theorem xsBytes_succ (n : Nat) (x : U64) : xsBytes (n + 1) x = xsBytes n x ++ [xsOut (xsIter (n + 1) x)] := by
  induction n generalizing x with
  | zero => rfl
  | succ n ih => rw [xsBytes, ih]; rfl

/-! Ending a command. -/

/-- `raise` answers the state with the code on the port and nothing else changed (60_exceptions.md R296). -/
theorem State.raise_eq (s : State) (c : Code) : s.raise c = .next (s.respond c 0#32) := rfl

/-- Everything a command can do under the common checks: the must-discard answer, the effect's new state with OK, or the
effect's code with nothing else changed. -/
theorem State.command_cases {s t : State} {e : Effect} (h : s.command e = .next t) :
    (s.discard = true ∧ t = s.respond .eDiscard 0#32) ∨
    (s.discard = false ∧ ∃ u v, e = .ok (u, v) ∧ t = u.respond .ok v) ∨
    (s.discard = false ∧ ∃ c, e = .error c ∧ t = s.respond c 0#32) := by
  unfold State.command at h
  cases hd : s.discard with
  | true => simp only [hd, if_true, State.raise, Host.Outcome.next.injEq] at h; exact .inl ⟨rfl, h.symm⟩
  | false =>
    simp only [hd, Bool.false_eq_true, if_false] at h
    cases e with
    | ok p =>
      obtain ⟨u, v⟩ := p
      simp only [Host.Outcome.next.injEq] at h
      exact .inr (.inl ⟨rfl, u, v, rfl, h.symm⟩)
    | error c =>
      simp only [State.raise, Host.Outcome.next.injEq] at h
      exact .inr (.inr ⟨rfl, c, rfl, h.symm⟩)

theorem State.command_ok {s : State} (h : s.discard = false) (u : State) (v : BitVec 32) :
    s.command (.ok (u, v)) = .next (u.respond .ok v) := by
  simp [State.command, h]

theorem State.command_error {s : State} (h : s.discard = false) (c : Code) :
    s.command (.error c) = .next (s.respond c 0#32) := by
  simp [State.command, h, State.raise]

theorem State.command_discard {s : State} (h : s.discard = true) (e : Effect) :
    s.command e = .next (s.respond .eDiscard 0#32) := by
  simp [State.command, h, State.raise]

/-- A command always answers a next state. -/
theorem State.command_next (s : State) (e : Effect) : ∃ t, s.command e = .next t := by
  unfold State.command State.raise
  split
  · exact ⟨_, rfl⟩
  · split <;> exact ⟨_, rfl⟩

/-! The window (41_window.md R137, R139). -/

/-- Everything a push can do. -/
theorem State.swPush_cases (s : State) (b : Byte) :
    (s.winLen < s.patLen ∧
      s.swPush b = { s with win := s.win.setIfInBounds s.winLen.val b, winLen := s.winLen + 1 }) ∨
    (¬s.winLen < s.patLen ∧ s.swPush b = { s with win := shiftIn s.win s.patLen.val b }) := by
  unfold State.swPush
  split
  · next h => exact .inl ⟨h, rfl⟩
  · next h => exact .inr ⟨h, rfl⟩

theorem entry_eq_getElem (v : Vector Byte 31) (i : Nat) (h : i < 31) : entry v i = v[i] := by
  simp [entry, h]

theorem shiftIn_getElem (v : Vector Byte 31) (len : Nat) (b : Byte) (i : Nat) (h : i < 31) :
    (shiftIn v len b)[i] = if i + 1 < len then entry v (i + 1) else if i + 1 = len then b else v[i] := by
  simp [shiftIn, entry]

theorem entriesOf_getElem (bytes : List Byte) (i : Nat) (h : i < 31) :
    (entriesOf bytes)[i] = bytes.getD i 0#8 := by
  simp [entriesOf, List.getD]

/-- The match test, position by position. -/
theorem State.swMatches_iff (s : State) :
    s.swMatches = true ↔ s.winLen = s.patLen ∧ ∀ i < s.patLen.val, entry s.win i = entry s.pat i := by
  simp [State.swMatches]

/-! The searches (44_prime.md R216, R226, R229). -/

/-- The bounded search answers the least accepted value of its interval. -/
theorem nextFrom_eq_some_iff (test : Nat → Bool) (f m v : Nat) :
    nextFrom test f m = some v ↔ m ≤ v ∧ v < m + f ∧ test v = true ∧ ∀ x, m ≤ x → x < v → test x = false := by
  induction f generalizing m with
  | zero => simp [nextFrom]; omega
  | succ f ih =>
    unfold nextFrom
    split
    · next h =>
      constructor
      · intro e
        cases e
        exact ⟨le_refl _, by omega, h, fun x h1 h2 => by omega⟩
      · rintro ⟨h1, _, _, h4⟩
        rcases Nat.lt_or_eq_of_le h1 with h5 | h5
        · exact absurd (h4 m (le_refl _) h5) (by simp [h])
        · rw [h5]
    · next h =>
      rw [ih]
      constructor
      · rintro ⟨h1, h2, h3, h4⟩
        refine ⟨by omega, by omega, h3, fun x hx1 hx2 => ?_⟩
        rcases Nat.lt_or_eq_of_le hx1 with h5 | h5
        · exact h4 x h5 hx2
        · simpa [← h5] using h
      · rintro ⟨h1, h2, h3, h4⟩
        have : m ≠ v := fun e => h (by rw [e]; exact h3)
        exact ⟨by omega, by omega, h3, fun x hx1 hx2 => h4 x (by omega) hx2⟩

theorem nextFrom_eq_none_iff (test : Nat → Bool) (f m : Nat) :
    nextFrom test f m = none ↔ ∀ x, m ≤ x → x < m + f → test x = false := by
  induction f generalizing m with
  | zero => simp [nextFrom]; omega
  | succ f ih =>
    unfold nextFrom
    split
    · next h => simpa using ⟨m, le_refl _, by omega, h⟩
    · next h =>
      rw [ih]
      constructor
      · intro h1 x hx1 hx2
        rcases Nat.lt_or_eq_of_le hx1 with h5 | h5
        · exact h1 x h5 (by omega)
        · simpa [← h5] using h
      · exact fun h1 x hx1 hx2 => h1 x (by omega) (by omega)

/-- Everything `nextpp` can answer: the smallest probable prime where it is below 2^W (44_prime.md R226). -/
theorem nextpp_eq_some_iff (n v : Nat) : nextpp n = some v ↔ leastProbablePrime n v ∧ v < Config.regLimit := by
  unfold nextpp leastProbablePrime
  rw [nextFrom_eq_some_iff]
  generalize Config.regLimit = limit
  constructor
  · rintro ⟨h1, h2, h3, h4⟩
    exact ⟨⟨h1, h3, h4⟩, by omega⟩
  · rintro ⟨⟨h1, h3, h4⟩, h2⟩
    exact ⟨h1, by omega, h3, h4⟩

/-! The equations of the table scan (44_prime.md R229), by rfl: they spare a proof the unfolding of `nextpp`. -/

theorem searchScan_nil (c : Nat) : searchScan [] c = some c := rfl

theorem searchScan_cons (sp : Nat) (ps : List Nat) (c : Nat) :
    searchScan (sp :: ps) c =
      if c % sp = 0 then
        match nextpp (c + 1) with
        | none => none
        | some c' => searchScan ps c'
      else searchScan ps c := rfl

/-- The scan answers the first index at or after its start whose entry divides, or the index past the last entry. -/
theorem sieveFrom_spec (c : Nat) (ps : List Nat) (j : Nat) :
    j ≤ sieveFrom c ps j ∧ sieveFrom c ps j ≤ j + ps.length ∧
      (∀ i (h : i < ps.length), j + i < sieveFrom c ps j → c % ps[i] ≠ 0) ∧
      (∀ (h : sieveFrom c ps j - j < ps.length), c % ps[sieveFrom c ps j - j] = 0) := by
  induction ps generalizing j with
  | nil => simp [sieveFrom]
  | cons p ps ih =>
    unfold sieveFrom
    split
    · next h =>
      refine ⟨le_refl _, by simp, fun i _ hi => by omega, fun _ => by simpa using h⟩
    · next h =>
      obtain ⟨h1, h2, h3, h4⟩ := ih (j + 1)
      refine ⟨by omega, by simp only [List.length_cons]; omega, fun i hi1 hi2 => ?_, fun h5 => ?_⟩
      · cases i with
        | zero => simpa using h
        | succ i =>
          simp only [List.length_cons] at hi1
          simpa using h3 i (by omega) (by omega)
      · simp only [List.length_cons] at h5
        have h6 := h4 (by omega)
        have e : sieveFrom c ps (j + 1) - j = (sieveFrom c ps (j + 1) - (j + 1)) + 1 := by omega
        simp only [e, List.getElem_cons_succ]
        exact h6

/-! The transitions. -/

/-- Everything the transition of an idle block can do. -/
theorem State.idleStep_cases (s : State) :
    (s.packets = [] ∧ s.idleStep = .next s.tick) ∨
    ∃ p rest, s.packets = p :: rest ∧
      ((∃ e, decode p = .error e ∧
          s.idleStep = .next ((s.accept rest).respond .eIllegal 0#32).tick) ∨
        ∃ i, decode p = .ok i ∧
          ((∃ t, exec i (s.accept rest) = .next t ∧ s.idleStep = .next t.tick) ∨
            (∃ f, exec i (s.accept rest) = .fault f) ∨ ∃ r, exec i (s.accept rest) = .refused r)) := by
  unfold State.idleStep
  cases hp : s.packets with
  | nil => exact .inl ⟨rfl, rfl⟩
  | cons p rest =>
    refine .inr ⟨p, rest, rfl, ?_⟩
    unfold runPacket
    cases hd : decode p with
    | error e => exact .inl ⟨e, rfl, by simp only [hd]⟩
    | ok i =>
      refine .inr ⟨i, rfl, ?_⟩
      cases hx : exec i (s.accept rest) with
      | next t => exact .inl ⟨t, rfl, by simp only [hd, hx]⟩
      | fault f => exact .inr (.inl ⟨f, rfl⟩)
      | refused r => exact .inr (.inr ⟨r, rfl⟩)

/-- Everything a step can do, by the hard reset pin and the phase (42_prbg_setup.md R174). -/
theorem step_cases (s : State) :
    (s.pins.hardReset = true ∧ step s = .next s.resetBlock.tick) ∨
    (s.pins.hardReset = false ∧ s.phase = .idle ∧ step s = s.idleStep) ∨
    (s.pins.hardReset = false ∧ s.phase = .sampling ∧ s.pins.cancelReq = true ∧ step s = .next s.cancelSetup.tick) ∨
    (s.pins.hardReset = false ∧ s.phase = .sampling ∧ s.pins.cancelReq = false ∧ step s = .next s.byteStep.tick) ∨
    (s.pins.hardReset = false ∧ s.phase = .drawing ∧ step s = .next s.reseedAndNext.tick) := by
  unfold step State.blockStep
  cases hr : s.pins.hardReset with
  | true => exact .inl ⟨rfl, rfl⟩
  | false =>
    cases hp : s.phase with
    | idle => exact .inr (.inl ⟨rfl, rfl, rfl⟩)
    | sampling =>
      cases hc : s.pins.cancelReq with
      | true => exact .inr (.inr (.inl ⟨rfl, rfl, rfl, by simp [State.sampleAndStep, hc]⟩))
      | false => exact .inr (.inr (.inr (.inl ⟨rfl, rfl, rfl, by simp [State.sampleAndStep, hc]⟩)))
    | drawing => exact .inr (.inr (.inr (.inr ⟨rfl, rfl, rfl⟩)))

end Sys2Proof.Machine
end

