-- ==== Sys2Proof/Laws/PerInstr.lean ====
section
/-! SUPPORT. The per-instruction family Opcode: the encoder puts the table's opcode in bits 31 to 24 of every command's
packet, and 0 in its `arg` unless the command is PRBG.SETUP (30_encoding.md R85, R87, R96). -/

namespace Sys2Proof.Laws.Opcode

/-- The opcode column of R96. -/
def ofInstr : Instr → BitVec 8
  | .sysStatus => 0x01#8
  | .sysReset => 0x02#8
  | .bufWr _ _ => 0x08#8
  | .bufRd _ => 0x09#8
  | .xsReseed _ _ => 0x10#8
  | .xsNext => 0x11#8
  | .xsFill _ _ => 0x12#8
  | .swLoadpat _ _ => 0x20#8
  | .swPush _ => 0x21#8
  | .swMatch => 0x22#8
  | .swClear => 0x23#8
  | .prbgSetup _ => 0x30#8
  | .bnLoad _ _ _ => 0x40#8
  | .bnStore _ _ _ => 0x41#8
  | .bnGcd _ _ _ => 0x42#8
  | .bnModexp _ _ _ _ => 0x43#8
  | .bnModinv _ _ _ => 0x44#8
  | .prSieve _ _ => 0x50#8
  | .prPptest _ => 0x51#8
  | .prNextpp _ _ => 0x52#8
  | .prSearch _ _ => 0x53#8
  | .drsaDerive _ _ => 0x60#8
  | .keyGet _ _ => 0x61#8

/-- `arg` of a command's packet (R87). -/
def argOf : Instr → BitVec 32
  | .sysStatus => 0#32
  | .sysReset => 0#32
  | .bufWr _ _ => 0#32
  | .bufRd _ => 0#32
  | .xsReseed _ _ => 0#32
  | .xsNext => 0#32
  | .xsFill _ _ => 0#32
  | .swLoadpat _ _ => 0#32
  | .swPush _ => 0#32
  | .swMatch => 0#32
  | .swClear => 0#32
  | .prbgSetup arg => arg
  | .bnLoad _ _ _ => 0#32
  | .bnStore _ _ _ => 0#32
  | .bnGcd _ _ _ => 0#32
  | .bnModexp _ _ _ _ => 0#32
  | .bnModinv _ _ _ => 0#32
  | .prSieve _ _ => 0#32
  | .prPptest _ => 0#32
  | .prNextpp _ _ => 0#32
  | .prSearch _ _ => 0#32
  | .drsaDerive _ _ => 0#32
  | .keyGet _ _ => 0#32

/-- The packet of the instruction carries its opcode and its `arg`. -/
def Statement (i : Instr) : Prop := pktOp (encode i) = ofInstr i ∧ pktArg (encode i) = argOf i

theorem sysStatus : Statement .sysStatus := ⟨pktOp_packetOf _ _ _, pktArg_packetOf _ _ _⟩
theorem sysReset : Statement .sysReset := ⟨pktOp_packetOf _ _ _, pktArg_packetOf _ _ _⟩
theorem bufWr (off : Off) (byte : Byte) : Statement (.bufWr off byte) := ⟨pktOp_packetOf _ _ _, pktArg_packetOf _ _ _⟩
theorem bufRd (off : Off) : Statement (.bufRd off) := ⟨pktOp_packetOf _ _ _, pktArg_packetOf _ _ _⟩
theorem xsReseed (off len : Off) : Statement (.xsReseed off len) := ⟨pktOp_packetOf _ _ _, pktArg_packetOf _ _ _⟩
theorem xsNext : Statement .xsNext := ⟨pktOp_packetOf _ _ _, pktArg_packetOf _ _ _⟩
theorem xsFill (off len : Off) : Statement (.xsFill off len) := ⟨pktOp_packetOf _ _ _, pktArg_packetOf _ _ _⟩
theorem swLoadpat (off len : Off) : Statement (.swLoadpat off len) := ⟨pktOp_packetOf _ _ _, pktArg_packetOf _ _ _⟩
theorem swPush (k : Byte) : Statement (.swPush k) := ⟨pktOp_packetOf _ _ _, pktArg_packetOf _ _ _⟩
theorem swMatch : Statement .swMatch := ⟨pktOp_packetOf _ _ _, pktArg_packetOf _ _ _⟩
theorem swClear : Statement .swClear := ⟨pktOp_packetOf _ _ _, pktArg_packetOf _ _ _⟩
theorem prbgSetup (arg : BitVec 32) : Statement (.prbgSetup arg) := ⟨pktOp_packetOf _ _ _, pktArg_packetOf _ _ _⟩
theorem bnLoad (gd : Reg) (off len : Off) : Statement (.bnLoad gd off len) := ⟨pktOp_packetOf _ _ _, pktArg_packetOf _ _ _⟩
theorem bnStore (gs : Reg) (off len : Off) : Statement (.bnStore gs off len) := ⟨pktOp_packetOf _ _ _, pktArg_packetOf _ _ _⟩
theorem bnGcd (gd gs1 gs2 : Reg) : Statement (.bnGcd gd gs1 gs2) := ⟨pktOp_packetOf _ _ _, pktArg_packetOf _ _ _⟩
theorem bnModexp (gd gs1 gs2 gs3 : Reg) : Statement (.bnModexp gd gs1 gs2 gs3) := ⟨pktOp_packetOf _ _ _, pktArg_packetOf _ _ _⟩
theorem bnModinv (gd gs1 gs2 : Reg) : Statement (.bnModinv gd gs1 gs2) := ⟨pktOp_packetOf _ _ _, pktArg_packetOf _ _ _⟩
theorem prSieve (gs1 : Reg) (k : Byte) : Statement (.prSieve gs1 k) := ⟨pktOp_packetOf _ _ _, pktArg_packetOf _ _ _⟩
theorem prPptest (gs1 : Reg) : Statement (.prPptest gs1) := ⟨pktOp_packetOf _ _ _, pktArg_packetOf _ _ _⟩
theorem prNextpp (gd gs1 : Reg) : Statement (.prNextpp gd gs1) := ⟨pktOp_packetOf _ _ _, pktArg_packetOf _ _ _⟩
theorem prSearch (gd gs1 : Reg) : Statement (.prSearch gd gs1) := ⟨pktOp_packetOf _ _ _, pktArg_packetOf _ _ _⟩
theorem drsaDerive (off len : Off) : Statement (.drsaDerive off len) := ⟨pktOp_packetOf _ _ _, pktArg_packetOf _ _ _⟩
theorem keyGet (gd : Reg) (sel : KeySel) : Statement (.keyGet gd sel) := ⟨pktOp_packetOf _ _ _, pktArg_packetOf _ _ _⟩

end Sys2Proof.Laws.Opcode
end

