-- ==== Sys2Proof/Tests/Slice0.lean ====
section
/-! SUPPORT. Tests of the model, each a named theorem about fixed values. Expected words, responses and states are those
of 95_test_vectors.md (its section is named beside each group), or of the worked example of the rule named. After them
stand the witnesses: for each statement of Certificates/Slice0/Obligations.lean that has hypotheses, a concrete state
and operands that meet all of them together. -/

namespace Sys2Proof.Tests

open Sys2Proof Sys2Proof.Machine

set_option Elab.async false

/-- A field of the next state, if there is one. -/
def after {α : Type} (r : Result) (f : State → α) : Option α :=
  match r with
  | .next t => some (f t)
  | .fault _ => none
  | .refused _ => none

/-- The response of the next state as two numbers. -/
def answer (r : Result) : Option (Nat × Nat) :=
  match r with
  | .next t => t.response.map fun x => (x.code.toNat, x.val.toNat)
  | .fault _ => none
  | .refused _ => none

/-- Reset, then the generator seeded. -/
def seededWith (x : U64) : State := { State.reset with xs := x, seeded := true }

/-- Reset, then a pattern loaded, the window holding the given bytes. -/
def withPattern (s : State) (pattern window : List Byte) : State :=
  { s with pat := entriesOf pattern, patLen := Fin.ofNat 32 pattern.length, patValid := true,
           win := entriesOf window, winLen := Fin.ofNat 32 window.length }

/-- Reset, then bytes written from an offset of BUF on. -/
def withBytes (off : Nat) (bytes : List Byte) : State := { State.reset with buf := memWriteRange [] off bytes }

/-- Reset, then values in g0, g1, g2. -/
def withRegs (a b c : Nat) : State := ((State.reset.setReg 0 a).setReg 1 b).setReg 2 c

/-- The key of the seed 12 34 56 78 (section 6). -/
def keyed : State :=
  { withBytes 0 [0x12, 0x34, 0x56, 0x78] with
      kp := 4663, kq := 22147, kn := 103271461, kphi := 103244652, kd := 63312317, keyValid := true }

/-- A PRBG.SETUP that has just begun from seed 1, with a pattern and an iteration count. -/
def setupFrom (x : U64) (pattern : List Byte) (count : BitVec 32) : State :=
  { withPattern (seededWith x) pattern [] with iterRem := count, phase := .sampling }

/-! Well-formedness (30_encoding.md R98 g). -/

theorem test_sieve_index_168_is_wellFormed : (Instr.prSieve 7 168#8).wellFormed = true := by decide
theorem test_sieve_index_169_is_not_wellFormed : (Instr.prSieve 7 169#8).wellFormed = false := by decide
theorem test_sieve_index_255_is_not_wellFormed : (Instr.prSieve 0 255#8).wellFormed = false := by decide

/-! Decoding: one packet for each command, as the spec writes it. -/

theorem test_decode_sysStatus : decode 0x0000000001000000#64 = .ok .sysStatus := by decide
theorem test_decode_sysReset : decode 0x0000000002000000#64 = .ok .sysReset := by decide
theorem test_decode_bufWr : decode 0x00000000080044C5#64 = .ok (.bufWr 17#10 0xC5#8) := by decide
theorem test_decode_bufRd : decode 0x00000000090FFC00#64 = .ok (.bufRd 1023#10) := by decide
theorem test_decode_xsReseed : decode 0x00000000100FFC02#64 = .ok (.xsReseed 1023#10 2#10) := by decide
theorem test_decode_xsNext : decode 0x0000000011000000#64 = .ok .xsNext := by decide
theorem test_decode_xsFill : decode 0x00000000120FA064#64 = .ok (.xsFill 1000#10 100#10) := by decide
theorem test_decode_swLoadpat : decode 0x00000000200F841F#64 = .ok (.swLoadpat 993#10 31#10) := by decide
theorem test_decode_swPush : decode 0x00000000210000C5#64 = .ok (.swPush 0xC5#8) := by decide
theorem test_decode_swMatch : decode 0x0000000022000000#64 = .ok .swMatch := by decide
theorem test_decode_swClear : decode 0x0000000023000000#64 = .ok .swClear := by decide
theorem test_decode_prbgSetup : decode 0x0000000230000000#64 = .ok (.prbgSetup 2#32) := by decide
theorem test_decode_bnLoad : decode 0x0000000040101002#64 = .ok (.bnLoad 1 4#10 2#10) := by decide
theorem test_decode_bnStore : decode 0x00000000411961A8#64 = .ok (.bnStore 1 600#10 424#10) := by decide
theorem test_decode_bnGcd : decode 0x0000000042012000#64 = .ok (.bnGcd 0 1 2) := by decide
theorem test_decode_bnModexp : decode 0x0000000043301200#64 = .ok (.bnModexp 3 0 1 2) := by decide
theorem test_decode_bnModinv : decode 0x0000000044012000#64 = .ok (.bnModinv 0 1 2) := by decide
theorem test_decode_prSieve : decode 0x00000000500000A7#64 = .ok (.prSieve 0 167#8) := by decide
theorem test_decode_prPptest : decode 0x0000000051010000#64 = .ok (.prPptest 1) := by decide
theorem test_decode_prNextpp : decode 0x0000000052210000#64 = .ok (.prNextpp 2 1) := by decide
theorem test_decode_prSearch : decode 0x0000000053210000#64 = .ok (.prSearch 2 1) := by decide
theorem test_decode_drsaDerive : decode 0x00000000600FA064#64 = .ok (.drsaDerive 1000#10 100#10) := by decide
theorem test_decode_keyGet : decode 0x0000000061000080#64 = .ok (.keyGet 0 .privD) := by decide

/-- Format K and format R written bit by bit: KEY.GET g5, PRIV.Q has rd = 0101 and k = 10000010 (R92, R256), and
BN.MODEXP g7, g1, g2, g4 has 0111, 0001, 0010, 0100 and eight zeros (R90). -/
theorem test_decode_bit_by_bit :
    decode 0b0110000101010000000000001000_0010#64 = .ok (.keyGet 5 .privQ) ∧
    decode 0b0100001101110001001001000000_0000#64 = .ok (.bnModexp 7 1 2 4) := by decide

/-- Each case of R98, by packets of section 7.1. -/
theorem test_illegal_unknown_opcode :
    [0x0000000000000000#64, 0x0000000003000000#64, 0x00000000FF000000#64].map decode =
      List.replicate 3 (.error .unknownOpcode) := by decide
theorem test_illegal_zero_bit :
    [0x0000000001000001#64, 0x0000000011800000#64, 0x00000000080001C5#64, 0x0000000008100000#64,
     0x0000000130000001#64, 0x0000000042012001#64, 0x0000000061000100#64].map decode =
      List.replicate 7 (.error .zeroBitSet) := by decide
theorem test_illegal_register :
    [0x0000000040800001#64, 0x0000000043012800#64].map decode =
      List.replicate 2 (.error .registerOutOfRange) := by decide
theorem test_illegal_unused_register :
    [0x0000000010100004#64, 0x0000000021100000#64, 0x0000000042012100#64, 0x0000000050110000#64,
     0x0000000051110000#64, 0x0000000052011000#64, 0x0000000061010000#64].map decode =
      List.replicate 7 (.error .unusedRegisterSet) := by decide
theorem test_illegal_arg :
    [0x0000000102000000#64, 0x0000000511000000#64].map decode = List.replicate 2 (.error .argSet) := by decide
theorem test_illegal_byte : decode 0x0000000009004401#64 = .error .byteSet := by decide
theorem test_illegal_sieve_index :
    decode 0x00000000500100A9#64 = .error .sieveIndexOutOfRange ∧
    decode 0x00000000500100A8#64 = .ok (.prSieve 1 168#8) := by decide
theorem test_illegal_selector :
    [0x0000000061000002#64, 0x0000000061000040#64, 0x0000000061000083#64].map decode =
      List.replicate 3 (.error .unknownSelector) := by decide

/-- Encoding (R102) and the opcode table's bit numbering: bit 0 is the least significant bit of the command word. -/
theorem test_encode_examples :
    encode (.prbgSetup 2#32) = 0x0000000230000000#64 ∧ encode (.bnModexp 3 0 1 2) = 0x0000000043301200#64 ∧
    encode (.bnLoad 1 4#10 2#10) = 0x0000000040101002#64 := by decide
theorem test_decodeTableWord :
    decodeTableWord 64 0x0000000230000000 = some (.prbgSetup 2#32) ∧
    decodeTableWord 32 0x43301200 = some (.bnModexp 3 0 1 2) ∧ decodeTableWord 32 0 = none := by decide

/-- Text form (R101). -/
theorem test_instrText :
    instrText (.bnModexp 3 0 1 2) = "BN.MODEXP g3, g0, g1, g2" ∧ instrText (.keyGet 0 .pubN) = "KEY.GET g0, PUB.N" ∧
    instrText (.prbgSetup 2#32) = "PRBG.SETUP 2" ∧ instrText .xsNext = "XS.NEXT" := by decide +kernel

/-- The slice of section 4.1: "ab" has the pattern 60 C3 at index 9. -/
theorem test_confusionPattern :
    let digest : List Byte :=
      [0xfb, 0x8e, 0x20, 0xfc, 0x2e, 0x4c, 0x3f, 0x24, 0x8c, 0x60, 0xc3, 0x9b, 0xd6, 0x52, 0xf3, 0xc1,
       0x34, 0x72, 0x98, 0xbb, 0x97, 0x7b, 0x8b, 0x4d, 0x59, 0x03, 0xb8, 0x50, 0x55, 0x62, 0x06, 0x03]
    patternIndex digest 2 = 9 ∧ confusionPattern digest 2 = [0x60#8, 0xC3#8] := by decide

/-! The meanings, one step each. -/

/-- STATUS = 001F1F02 with a full window of 31 bytes (section 3.1). -/
theorem test_sysStatus_full_window :
    answer (exec .sysStatus (withPattern State.reset (List.replicate 31 7) (List.replicate 31 7))) =
      some (0, 0x001F1F02) := by decide +kernel
/-- Program P5 line 10: SEEDED, PATVALID and DISCARD set, PATLEN 2, WINLEN 1. -/
theorem test_sysStatus_in_must_discard :
    answer (exec .sysStatus { withPattern (seededWith 0x42021) [0x1B, 0x63] [0x21] with discard := true }) =
      some (0, 0x0001020B) := by decide +kernel

/-- R272, from the must-discard state. -/
theorem test_sysReset_clears_discard :
    after (exec .sysReset { keyed with discard := true, xs := 5, seeded := true }) id =
      some (State.reset.answered .ok 0#32) := by decide +kernel

/-- R274, R275: the neighbour cells stay, a cell that becomes 0 is not listed. -/
theorem test_bufWr_leaves_neighbours :
    after (exec (.bufWr 1#10 0xC5#8) (withBytes 0 [1, 2, 3])) (fun t => t.readRange 0#10 4#10) =
      some [1, 0xC5, 3, 0] := by decide +kernel
theorem test_bufWr_zero_unlists_the_cell :
    after (exec (.bufWr 1#10 0#8) (withBytes 0 [1, 2, 3])) (fun t => t.buf) = some [(0, 1), (2, 3)] := by
  decide +kernel
theorem test_bufRd_value : answer (exec (.bufRd 17#10) (withBytes 17 [0xC5])) = some (0, 0xC5) := by decide +kernel
theorem test_bufRd_last_cell : answer (exec (.bufRd 1023#10) State.reset) = some (0, 0) := by decide +kernel

/-- Section 2.4: five bytes AA 00 00 00 00 give the value AA00000000 modulo 2^32 = 0. -/
theorem test_xsReseed_drops_high_bytes :
    after (exec (.xsReseed 0#10 5#10) (withBytes 0 [0xAA, 0, 0, 0, 0])) (fun t => (t.xs, t.seeded)) =
      some (0, true) := by decide +kernel
/-- Section 7.2: XS.RESEED 1023, 2 is E_RANGE. -/
theorem test_xsReseed_range : answer (exec (.xsReseed 1023#10 2#10) State.reset) = some (5, 0) := by decide +kernel

/-- Section 2.1, rows 7 and 5: the sign is extended in the second line. -/
theorem test_xsNext_sign_extension :
    after (exec .xsNext (seededWith 0x00140048203D8063)) (fun t => t.xs) = some 0x83BA4C6350D3271B ∧
    answer (exec .xsNext (seededWith 0x00140048203D8063)) = some (0, 0x1B) := by decide +kernel
theorem test_xsNext_to_zero :
    after (exec .xsNext (seededWith 0xFFF0007FFC001FFF)) (fun t => t.xs) = some 0 := by decide +kernel

/-- Section 2.2, seed 12345678: bytes 1 to 4 and the state after them. -/
theorem test_xsFill_stream :
    after (exec (.xsFill 8#10 4#10) (seededWith 0x12345678)) (fun t => (t.readRange 8#10 4#10, t.xs)) =
      some ([0xA5, 0x22, 0x5D, 0x8D], 0x61A47B61B5040E8D) := by decide +kernel
/-- Section 7.2: XS.FILL 1000, 100 unseeded is E_CONFIG, not E_RANGE. -/
theorem test_xsFill_checks_seeded_first :
    answer (exec (.xsFill 1000#10 100#10) State.reset) = some (2, 0) := by decide +kernel

/-- Section 7.2: SW.LOADPAT 1000, 40 is E_CONFIG, not E_RANGE; 1000, 31 is E_RANGE. -/
theorem test_swLoadpat_checks_length_first :
    answer (exec (.swLoadpat 1000#10 40#10) State.reset) = some (2, 0) ∧
    answer (exec (.swLoadpat 1000#10 31#10) State.reset) = some (5, 0) := by decide +kernel
/-- R136: the window is emptied, the entries past the pattern are 0. -/
theorem test_swLoadpat_loads :
    after (exec (.swLoadpat 1#10 2#10) (withPattern (withBytes 0 [1, 2, 3, 4]) [9, 9, 9] [9])) (fun t =>
      (t.pattern, t.patLen.val, t.window, t.pat[2])) = some ([2, 3], 2, [], 0) := by decide +kernel

/-- Section 3.1: pattern AA BB CC. -/
theorem test_swPush_evicts_the_oldest :
    after (exec (.swPush 0xCC) (withPattern State.reset [0xAA, 0xBB, 0xCC] [0x11, 0xAA, 0xBB])) (fun t => t.window) =
      some [0xAA, 0xBB, 0xCC] := by decide +kernel
theorem test_swPush_appends :
    after (exec (.swPush 0xAA) (withPattern State.reset [0xAA, 0xBB, 0xCC] [0x11])) (fun t => t.window) =
      some [0x11, 0xAA] := by decide +kernel
theorem test_swMatch_values :
    answer (exec .swMatch (withPattern State.reset [0xAA, 0xBB] [0xAA, 0xBB])) = some (0, 1) ∧
    answer (exec .swMatch (withPattern State.reset [0xAA, 0xBB] [0xBB, 0xAA])) = some (0, 0) ∧
    answer (exec .swMatch (withPattern State.reset [0xAA, 0xAA] [0xAA])) = some (0, 0) := by decide +kernel
theorem test_swClear_empties :
    after (exec .swClear (withPattern State.reset [0xAA] [0xAA])) (fun t => (t.window, t.pattern, t.win[0])) =
      some ([], [0xAA], 0) := by decide +kernel

/-- Section 3.2, seed 1, pattern C5, one iteration: the transition after the third byte step draws 64 bytes, loads
766DD255 and answers OK. -/
theorem test_prbgSetup_draws :
    after (step { setupFrom 0x00421290949428C5 [0xC5] 1 with phase := .drawing }) (fun t =>
      (t.xs, t.iterRem, t.phase, t.response)) = some (0x766DD255, 0, .idle, some { code := 0, val := 0 }) := by
  decide +kernel
/-- Program P5 line 9: after one byte step the cancel is seen. -/
theorem test_prbgSetup_cancelled :
    after (step { withPattern (seededWith 0x42021) [0x1B, 0x63] [0x21] with
        iterRem := 3, phase := .sampling, pins := ⟨false, true⟩ }) (fun t =>
      (t.xs, t.window, t.iterRem, t.discard, t.response)) =
      some (0x42021, [0x21], 3, true, some { code := 4, val := 0 }) := by decide +kernel

/-- Section 7.3, sequence A: 513 bytes with a leading 01 overflow; 512 give 2^4088. -/
theorem test_bnLoad_overflow : answer (exec (.bnLoad 0 0#10 513#10) (withBytes 0 [1])) = some (6, 0) := by
  decide +kernel
theorem test_bnLoad_largest_range :
    after (exec (.bnLoad 0 0#10 512#10) (withBytes 0 [1])) (fun t => t.reg 0) = some (2 ^ 4088) := by decide +kernel
/-- R189: 103271461 is 06 27 CC 25 (program P3). -/
theorem test_bnStore_bytes :
    after (exec (.bnStore 0 16#10 4#10) (withRegs 103271461 0 0)) (fun t => t.readRange 15#10 6#10) =
      some [0, 0x06, 0x27, 0xCC, 0x25, 0] := by decide +kernel
theorem test_bnStore_too_small : answer (exec (.bnStore 0 0#10 1#10) (withRegs 256 0 0)) = some (6, 0) := by
  decide +kernel
/-- Sections 5.1, 5.2, 5.3. -/
theorem test_bnGcd_values :
    after (exec (.bnGcd 0 0 1) (withRegs 65537 4277468916 0)) (fun t => t.reg 0) = some 65537 ∧
    after (exec (.bnGcd 2 0 1) (withRegs 7 0 5)) (fun t => t.reg 2) = some 7 := by decide +kernel
theorem test_bnModexp_values :
    after (exec (.bnModexp 3 0 1 2) (withRegs 4 13 497)) (fun t => t.reg 3) = some 445 ∧
    after (exec (.bnModexp 0 0 1 2) (withRegs 5 0 1)) (fun t => t.reg 0) = some 0 := by decide +kernel
theorem test_bnModexp_zero_modulus : answer (exec (.bnModexp 0 1 2 3) State.reset) = some (7, 0) := by decide +kernel
theorem test_bnModinv_value :
    after (exec (.bnModinv 0 0 1) (withRegs 65537 103244652 0)) (fun t => t.reg 0) = some 63312317 := by
  decide +kernel
theorem test_bnModinv_none :
    answer (exec (.bnModinv 0 0 1) (withRegs 2 4 0)) = some (7, 0) ∧
    answer (exec (.bnModinv 0 0 1) (withRegs 0 1 0)) = some (0, 0) := by decide +kernel

/-- Sections 5.4, 5.5, 5.6. -/
theorem test_prSieve_values :
    answer (exec (.prSieve 0 8#8) (withRegs 1007 0 0)) = some (0, 15) ∧
    answer (exec (.prSieve 0 16#8) (withRegs 1007 0 0)) = some (0, 168) ∧
    answer (exec (.prSieve 0 167#8) State.reset) = some (0, 167) := by decide +kernel
theorem test_prPptest_composites :
    [0, 1, 4, 561, 2047, 51983, 1373653].map (fun n => answer (exec (.prPptest 1) (withRegs 0 n 0))) =
      List.replicate 7 (some (0, 0)) := by decide +kernel
theorem test_prPptest_primes :
    [2, 3, 5, 229, 1009, 65537].map (fun n => answer (exec (.prPptest 1) (withRegs 0 n 0))) =
      List.replicate 6 (some (0, 1)) := by decide +kernel
theorem test_prNextpp_value :
    after (exec (.prNextpp 2 1) (withRegs 0 1010 0)) (fun t => t.reg 2) = some 1013 := by decide +kernel
theorem test_prSearch_advances :
    after (exec (.prSearch 2 1) (withRegs 0 997 0)) (fun t => (t.reg 2, t.reg 1)) = some (1009, 997) := by
  decide +kernel

/-- Section 6: the seed 12 34 56 78, and a seed whose φ is a multiple of 65537. -/
theorem test_drsaDerive_key :
    after (exec (.drsaDerive 0#10 4#10) (withBytes 0 [0x12, 0x34, 0x56, 0x78])) id =
      some (keyed.answered .ok 0#32) := by decide +kernel
theorem test_drsaDerive_impossible :
    answer (exec (.drsaDerive 0#10 6#10) (withBytes 0 [0x0E, 0x00, 0x0F, 0x00, 0x12, 0x34])) = some (3, 0) := by
  decide +kernel
theorem test_keyGet_members :
    ([.pubN, .pubE, .privD, .privP, .privQ] : List KeySel).map (fun k =>
        after (exec (.keyGet 6 k) keyed) (fun t => t.reg 6)) =
      [some 0x627CC25, some 0x10001, some 0x3C611BD, some 0x1237, some 0x5683] := by decide +kernel
theorem test_keyGet_without_key : answer (exec (.keyGet 0 .pubE) State.reset) = some (9, 0) := by decide +kernel

/-! The step. -/

/-- The next step runs the packet that withFetchWord places. -/
theorem test_withFetchWord_runs :
    answer (step (State.reset.withFetchWord 64 0x00000000500000A7)) = some (0, 0xA7) ∧
    answer (step (State.reset.withFetchWord 64 0)) = some (1, 0) := by decide +kernel
/-- R302 (a): hard reset wins over a running PRBG.SETUP and leaves no response. -/
theorem test_hard_reset_ends_a_setup :
    after (step { setupFrom 1 [0xC5] 1 with pins := ⟨true, true⟩ }) (fun t => (t.phase, t.response, t.xs, t.discard)) =
      some (.idle, none, 0, false) := by decide +kernel

/-- R326: hard reset asserted right after a PRBG.SETUP is accepted (arg = 2), before its first sampling point. -/
theorem test_hard_reset_before_the_first_sample :
    after (runSteps 2 { withPattern (seededWith 1) [0xC5] [] with
        packets := [0x0000000230000000#64], script := [⟨true, false⟩] }) (fun t => { t with pins := ⟨false, false⟩ }) =
      some State.reset := by decide +kernel

/-! Witnesses for the statements, in their order. Each gives values that meet every hypothesis of the statement named,
clause by clause where it has clauses, at a boundary of the range a hypothesis speaks of. -/

/-- DecodeEncodeRoundTrip, EncodeDecodeRoundTrip, LegalPacketsAreTheOpcodeMap. -/
theorem witness_round_trips :
    (Instr.prSieve 7 168#8).wellFormed = true ∧ decode 0x00000000500700A8#64 = .ok (.prSieve 7 168#8) ∧
    (opcodeMap.filter fun r => r.selects 0x00000000500700A8#64).map (fun r => r.name) = ["PR.SIEVE"] ∧
    (opcodeMap.filter fun r => r.selects 0x00000000500700A9#64).map (fun r => r.name) = [] := by decide

/-- BothResetsLeaveTheResetState: hard reset in the middle of the draws. -/
def midDraw : State := { withPattern (seededWith 9) [7] [7] with iterRem := 2, phase := .drawing, pins := ⟨true, false⟩ }
theorem witness_BothResetsLeaveTheResetState :
    midDraw.pins.hardReset = true ∧ after (step midDraw) (fun t => t.xs) = some 0 := by decide +kernel

/-- An idle block with one packet to come. -/
def offered (s : State) (p : Packet) : State := { s with packets := [p] }

/-- StepRunsTheDecodedCommand. -/
theorem witness_StepRunsTheDecodedCommand :
    (offered (seededWith 1) 0x11000000#64).pins.hardReset = false ∧ (offered (seededWith 1) 0x11000000#64).phase = .idle ∧
    (offered (seededWith 1) 0x11000000#64).packets = 0x11000000#64 :: [] ∧ decode 0x11000000#64 = .ok .xsNext := by decide

/-- IllegalPacketIsAnsweredEIllegal, in the must-discard state. -/
theorem witness_IllegalPacketIsAnsweredEIllegal :
    (offered { State.reset with discard := true } 0xFF000000#64).pins.hardReset = false ∧
    (offered { State.reset with discard := true } 0xFF000000#64).phase = .idle ∧
    (offered { State.reset with discard := true } 0xFF000000#64).packets = 0xFF000000#64 :: [] ∧
    decode 0xFF000000#64 = .error .unknownOpcode := by decide

/-- ErrorsChangeNothing. -/
theorem witness_ErrorsChangeNothing :
    runPacket 0x11000000#64 State.reset = .next (State.reset.answered .eConfig 0#32) ∧
    (State.reset.answered .eConfig 0#32).response = some { code := Code.eConfig.bits, val := 0#32 } ∧
    Code.eConfig ≠ .ok ∧ Code.eConfig ≠ .cancelled := ⟨rfl, rfl, by decide, by decide⟩

/-- DiscardAndNokeyAnswers, both clauses; the first also for DiscardFlag. -/
theorem witness_DiscardAndNokeyAnswers :
    ({ State.reset with discard := true } : State).discard = true ∧ Instr.xsNext ≠ .sysReset ∧
    Instr.xsNext ≠ .sysStatus ∧ State.reset.discard = false ∧ State.reset.keyValid = false := by decide

/-- CodesEachCommandGives, both cases. -/
theorem witness_CodesEachCommandGives :
    exec .xsNext State.reset = .next (State.reset.answered .eConfig 0#32) ∧
    exec (.prbgSetup 1#32) (withPattern (seededWith 1) [0xC5] []) =
      .next ((withPattern (seededWith 1) [0xC5] []).setupEntry 1#32) := ⟨rfl, rfl⟩

/-- The two ways a flag is cleared: hard reset, and SYS.RESET taken by an idle block. -/
def allFlags : State := { withPattern keyed [0xC5] [0xC5] with xs := 1, seeded := true }
theorem witness_flags_cleared :
    (allFlags.seeded = true ∧ allFlags.patValid = true ∧ allFlags.keyValid = true) ∧
    after (step { allFlags with pins := ⟨true, false⟩ }) (fun t => (t.seeded, t.patValid, t.keyValid)) =
      some (false, false, false) ∧
    after (step (offered { allFlags with discard := true } 0x02000000#64)) (fun t =>
      (t.seeded, t.patValid, t.keyValid, t.discard)) = some (false, false, false, false) ∧
    decode 0x02000000#64 = .ok .sysReset := by decide +kernel

/-- SeededFlag: an XS.RESEED answered OK, and DISCARD = 0 with SEEDED = 0 (clearing: witness_flags_cleared). -/
theorem witness_SeededFlag :
    after (exec (.xsReseed 1023#10 1#10) State.reset) (fun t => (t.response, t.seeded)) =
      some (some { code := Code.bits .ok, val := 0#32 }, true) ∧
    State.reset.discard = false ∧ State.reset.seeded = false := by decide +kernel

/-- PatvalidFlag: a SW.LOADPAT answered OK, and DISCARD = 0 with PATVALID = 0 (clearing: witness_flags_cleared; the
window invariant: witness_reset_WindowSound). -/
theorem witness_PatvalidFlag :
    after (exec (.swLoadpat 993#10 31#10) State.reset) (fun t => (t.response, t.patValid)) =
      some (some { code := Code.bits .ok, val := 0#32 }, true) ∧
    State.reset.discard = false ∧ State.reset.patValid = false := by decide +kernel
theorem witness_reset_WindowSound : WindowSound State.reset ∧ State.reset.patValid = false :=
  ⟨⟨by decide, by decide, by decide, by decide⟩, rfl⟩

/-- KeyvalidFlag: a DRSA.DERIVE answered OK (the derivation of section 6), one answered E_RANGE while a key is held, and
DISCARD = 0 with KEYVALID = 0 (clearing: witness_flags_cleared). -/
theorem witness_KeyvalidFlag :
    after (exec (.drsaDerive 0#10 4#10) (withBytes 0 [0x12, 0x34, 0x56, 0x78])) (fun t => t.response) =
      some (some { code := Code.bits .ok, val := 0#32 }) ∧
    after (exec (.drsaDerive 1023#10 2#10) keyed) (fun t => t.response) =
      some (some { code := Code.eRange.bits, val := 0#32 }) ∧ Code.eRange ≠ .ok ∧
    State.reset.discard = false ∧ State.reset.keyValid = false := by decide +kernel

/-- DiscardFlag: the two steps that set it, a cancellation at a sampling point and a PRBG.SETUP accepted while cancel_req
is 1, and a step that does not (clearing: witness_flags_cleared). -/
def acceptCancelled : State :=
  { withPattern (seededWith 1) [0xC5] [] with packets := [0x0000000230000000#64], pins := ⟨false, true⟩ }
theorem witness_DiscardFlag :
    after (step { setupFrom 1 [0xC5] 1 with pins := ⟨false, true⟩ }) (fun t => t.discard) = some true ∧
    acceptCancelled.discard = false ∧ after (step acceptCancelled) (fun t => t.discard) = some true ∧
    after (step (setupFrom 1 [0xC5] 1)) (fun t => t.discard) = some false ∧
    (setupFrom 1 [0xC5] 1).discard = false := by decide +kernel

/-- BufWriteAndRead, at the last cell. -/
theorem witness_BufWriteAndRead :
    State.reset.discard = false ∧
    after (exec (.bufWr 1023#10 0xC5#8) State.reset) (fun t => memRead t.buf 1023) = some 0xC5#8 := by decide +kernel

/-- ReseedLoadsBigEndianValue: the last byte alone, and the last four. -/
theorem witness_ReseedLoadsBigEndianValue :
    (withBytes 1020 [1, 2, 3, 4]).discard = false ∧ 1#10 ≠ 0#10 ∧ (1023#10).toNat + (1#10).toNat ≤ 1024 ∧
    4#10 ≠ 0#10 ∧ (1020#10).toNat + (4#10).toNat ≤ 1024 ∧ 4 ≤ (4#10).toNat ∧
    after (exec (.xsReseed 1020#10 4#10) (withBytes 1020 [1, 2, 3, 4])) (fun t => t.xs) = some 0x01020304 := by
  decide +kernel

/-- NextStepsTheGenerator, on a state whose second line needs the sign. -/
theorem witness_NextStepsTheGenerator :
    (seededWith 0x8000000000000000).discard = false ∧ (seededWith 0x8000000000000000).seeded = true := by decide

/-- FillStoresTheStream and FillEqualsNextAndWrite: a range that ends at BUFSZ, and an empty one. -/
theorem witness_FillStoresTheStream :
    (seededWith 1).discard = false ∧ (seededWith 1).seeded = true ∧ (1016#10).toNat + (8#10).toNat ≤ 1024 ∧
    (1023#10).toNat + (0#10).toNat ≤ 1024 := by decide
theorem witness_FillEqualsNextAndWrite :
    (seededWith 1).discard = false ∧ (seededWith 1).seeded = true ∧ (1022#10).toNat + (2#10).toNat ≤ 1024 ∧
    after (exec (.xsFill 1022#10 2#10) (seededWith 1)) (fun t => t.buf) =
      after (runAll (fillByHand 1022#10 2 1) (seededWith 1)) (fun t => t.buf) := by decide +kernel

/-- LoadPatternCopiesRange: length 31 ending at BUFSZ, and length 1. -/
theorem witness_LoadPatternCopiesRange :
    State.reset.discard = false ∧ 1 ≤ (31#10).toNat ∧ (31#10).toNat ≤ 31 ∧ (993#10).toNat + (31#10).toNat ≤ 1024 ∧
    1 ≤ (1#10).toNat ∧ (1023#10).toNat + (1#10).toNat ≤ 1024 := by decide

/-- PushAppendsOrEvicts: a full window of 31 bytes, and an empty one. -/
def fullWindow : State := withPattern State.reset (List.replicate 31 7) (List.replicate 31 8)
theorem witness_PushAppendsOrEvicts :
    fullWindow.discard = false ∧ fullWindow.patValid = true ∧ WindowSound fullWindow ∧
    (withPattern State.reset [7] []).patValid = true ∧ WindowSound (withPattern State.reset [7] []) :=
  ⟨rfl, rfl, ⟨by decide, by decide, by decide, by decide⟩, rfl, ⟨by decide, by decide, by decide, by decide⟩⟩

/-- PushesKeepTheLastBytes: one push more than the capacity. -/
theorem witness_PushesKeepTheLastBytes :
    (withPattern State.reset [1, 2] []).discard = false ∧ (withPattern State.reset [1, 2] []).patValid = true ∧
    0 < (withPattern State.reset [1, 2] []).patLen.val ∧ (withPattern State.reset [1, 2] []).winLen = 0 ∧
    after (runAll [.swPush 5#8, .swPush 6#8, .swPush 7#8] (withPattern State.reset [1, 2] [])) (fun t => t.window) =
      some [6#8, 7#8] := by decide +kernel

/-- MatchAndClear. -/
theorem witness_MatchAndClear : fullWindow.discard = false ∧ fullWindow.patValid = true := by decide

/-- SetupBeginsAndCancels, both clauses, the first with both levels of cancel_req (1: program P5, its last sentence but
one: XS stays 1, STATUS = 0000020B). -/
def setupAtP5 (cancel : Bool) : State :=
  { withPattern (seededWith 1) [0x1B, 0x63] [] with pins := ⟨false, cancel⟩ }
theorem witness_SetupBeginsAndCancels :
    (∀ cancel, (setupAtP5 cancel).discard = false ∧ (setupAtP5 cancel).seeded = true ∧
      (setupAtP5 cancel).patValid = true) ∧ 3#32 ≠ 0#32 ∧
    after (exec (.prbgSetup 3#32) (setupAtP5 true)) (fun t => (t.xs, t.statusWord, t.response)) =
      some (1, 0x0000020B, some { code := 4, val := 0 }) ∧
    after (exec (.prbgSetup 3#32) (setupAtP5 false)) (fun t => (t.phase, t.iterRem)) = some (.sampling, 3) ∧
    ({ setupFrom 1 [0xC5] 1 with pins := ⟨false, true⟩ } : State).pins.hardReset = false ∧
    ({ setupFrom 1 [0xC5] 1 with pins := ⟨false, true⟩ } : State).phase = .sampling ∧
    ({ setupFrom 1 [0xC5] 1 with pins := ⟨false, true⟩ } : State).pins.cancelReq = true := by decide +kernel

/-- ReseedTransition: the last iteration, and one before the last. -/
theorem witness_ReseedTransition :
    ({ setupFrom 1 [0xC5] 1 with phase := .drawing } : State).pins.hardReset = false ∧
    ({ setupFrom 1 [0xC5] 1 with phase := .drawing } : State).phase = .drawing ∧
    after (step { setupFrom 1 [0xC5] 1 with phase := .drawing }) (fun t => t.phase) = some .idle ∧
    after (step { setupFrom 1 [0xC5] 2 with phase := .drawing }) (fun t => t.phase) = some .sampling := by
  decide +kernel

/-- ByteStepEqualsHostCommands, both clauses: from seed 1 the first byte is 21, so pattern 21 matches and pattern C5 does
not; and a push into a full window, with the window invariant. -/
theorem witness_ByteStepEqualsHostCommands :
    (setupFrom 1 [0x21] 1).phase = .sampling ∧ (setupFrom 1 [0x21] 1).pins.hardReset = false ∧
    (setupFrom 1 [0x21] 1).pins.cancelReq = false ∧ (setupFrom 1 [0x21] 1).discard = false ∧
    (setupFrom 1 [0x21] 1).seeded = true ∧ (setupFrom 1 [0x21] 1).patValid = true ∧
    after (step (setupFrom 1 [0x21] 1)) (fun t => t.phase) = some .drawing ∧
    after (step (setupFrom 1 [0xC5] 1)) (fun t => (t.phase, t.window)) = some (.sampling, [0x21#8]) := by decide +kernel
def fullSampling : State := { fullWindow with xs := 1, seeded := true, iterRem := 1, phase := .sampling }
theorem witness_byte_step_full_window :
    (fullSampling.phase = .sampling ∧ fullSampling.pins.hardReset = false ∧ fullSampling.pins.cancelReq = false) ∧
    WindowSound fullSampling ∧ fullSampling.patValid = true :=
  ⟨⟨rfl, rfl, rfl⟩, ⟨by decide, by decide, by decide, by decide⟩, rfl⟩

/-- SetupStopsAtTheFirstMatch: seed 1, pattern 1B 63, byte step 6 (section 3.2). -/
theorem witness_SetupStopsAtTheFirstMatch :
    SetupReady (setupFrom 1 [0x1B, 0x63] 1) ∧
    firstMatch (setupFrom 1 [0x1B, 0x63] 1).pattern (setupFrom 1 [0x1B, 0x63] 1).xs 6 := by
  refine ⟨⟨rfl, rfl, rfl, rfl, rfl, by decide⟩, ?_⟩
  unfold firstMatch matchesAfter
  decide +kernel

/-- SetupNeverEndsFromZeroState. -/
theorem witness_SetupNeverEndsFromZeroState :
    SetupReady (setupFrom 0 [0x00, 0x01] 1) ∧ (setupFrom 0 [0x00, 0x01] 1).xs = 0#64 ∧
    ∃ b, b ∈ (setupFrom 0 [0x00, 0x01] 1).pattern ∧ b ≠ 0#8 :=
  ⟨⟨rfl, rfl, rfl, rfl, rfl, by decide⟩, rfl, 0x01, by decide, by decide⟩

/-- SetupRunsTheDelayProtocol: seed 1, pattern 63, two iterations of 4 and 103 byte steps (section 3.2). -/
theorem witness_SetupRunsTheDelayProtocol :
    SetupReady (setupFrom 1 [0x63] 2) ∧ [4, 103] ≠ ([] : List Nat) ∧
    [4, 103].length = (setupFrom 1 [0x63] 2).iterRem.toNat ∧
    setupTrace (setupFrom 1 [0x63] 2).pattern (setupFrom 1 [0x63] 2).xs [4, 103] 0x031340FF#64 := by
  refine ⟨⟨rfl, rfl, rfl, rfl, rfl, by decide⟩, by decide, by decide, ?_⟩
  unfold setupTrace setupTrace setupTrace firstMatch matchesAfter
  decide +kernel

/-- LoadReadsBigEndianValue: 512 bytes of FF ending at BUFSZ, and an empty range. -/
def highHalf : State := withBytes 512 (List.replicate 512 0xFF)
theorem greatest_bytes : be (List.replicate 512 0xFF#8) + 1 = 2 ^ 4096 := by decide +kernel
theorem rangeValue_withBytes (off n : Nat) (bytes : List Byte) (h : bytes.length = n) :
    (withBytes off bytes).rangeValue off n = be bytes := by
  subst h
  rw [State.rangeValue_eq_be]
  exact congrArg be (memReadRange_memWriteRange [] off bytes)
theorem highHalf_value : highHalf.rangeValue (512#10).toNat (512#10).toNat = be (List.replicate 512 0xFF#8) :=
  rangeValue_withBytes 512 512 _ List.length_replicate
theorem witness_LoadReadsBigEndianValue :
    highHalf.discard = false ∧ (512#10).toNat + (512#10).toNat ≤ 1024 ∧
    highHalf.rangeValue (512#10).toNat (512#10).toNat < 2 ^ 4096 ∧ (1023#10).toNat + (0#10).toNat ≤ 1024 ∧
    highHalf.rangeValue (1023#10).toNat (0#10).toNat < 2 ^ 4096 := by
  rw [highHalf_value, ← greatest_bytes]
  generalize be (List.replicate 512 0xFF#8) = v
  exact ⟨rfl, by decide, Nat.lt_succ_self v, by decide, Nat.succ_pos v⟩

/-- StoreWritesBigEndianBytes: the greatest value of one byte in the last cell, and 0 in no byte. -/
theorem witness_StoreWritesBigEndianBytes :
    (withRegs 255 0 0).discard = false ∧ (1023#10).toNat + (1#10).toNat ≤ 1024 ∧
    (withRegs 255 0 0).reg 0 < 256 ^ (1#10).toNat ∧ (1023#10).toNat + (0#10).toNat ≤ 1024 ∧
    (withRegs 255 0 0).reg 1 < 256 ^ (0#10).toNat := by decide

/-- GcdIsTheGreatestCommonDivisor. -/
theorem witness_GcdIsTheGreatestCommonDivisor :
    (withRegs 12 18 0).discard = false ∧ after (exec (.bnGcd 0 0 1) (withRegs 12 18 0)) (fun t => t.reg 0) = some 6 := by
  decide +kernel

/-- ModexpIsTheModularPower: modulus 1. -/
theorem witness_ModexpIsTheModularPower :
    (withRegs 5 0 1).discard = false ∧ (withRegs 5 0 1).reg 2 ≠ 0 := by decide

/-- ModinvIsTheModularInverse: modulus 1, a modulus with an inverse, and one without. -/
theorem witness_ModinvIsTheModularInverse :
    (withRegs 5 1 7).discard = false ∧ (withRegs 5 1 7).reg 1 ≠ 0 ∧ (withRegs 5 1 7).reg 2 ≠ 0 ∧
    Nat.gcd ((withRegs 5 1 7).reg 0 % (withRegs 5 1 7).reg 1) ((withRegs 5 1 7).reg 1) = 1 ∧
    Nat.gcd ((withRegs 5 1 7).reg 0 % (withRegs 5 1 7).reg 2) ((withRegs 5 1 7).reg 2) = 1 ∧
    (withRegs 2 4 0).reg 1 ≠ 0 ∧
    Nat.gcd ((withRegs 2 4 0).reg 0 % (withRegs 2 4 0).reg 1) ((withRegs 2 4 0).reg 1) ≠ 1 := by decide +kernel

/-- SieveAndTestAnswers: k at both ends. -/
theorem witness_SieveAndTestAnswers :
    (withRegs 1007 0 0).discard = false ∧ (168#8).toNat ≤ 168 ∧ (0#8).toNat ≤ 168 := by decide

/-- PptIsTheStrongTest: 0 and 1; 4; and 5 with 5 - 1 = 2^2 * 1. -/
theorem witness_PptIsTheStrongTest :
    0 < 2 ∧ 1 < 2 ∧ 4 ≤ 4 ∧ 4 % 2 = 0 ∧ 4 ≤ 5 ∧ 5 % 2 = 1 ∧ 5 - 1 = 2 ^ 2 * 1 ∧ 1 % 2 = 1 := by decide

/-- PrimesPassTheTest. -/
theorem witness_PrimesPassTheTest : Nat.Prime 2 ∧ Nat.Prime 229 := by norm_num

/-- NextppIsTheLeastProbablePrime: 4660 to 4663, and a probable prime that is its own next (section 5.6). -/
theorem witness_leastProbablePrime : leastProbablePrime 4660 4663 ∧ leastProbablePrime 997 997 := by
  unfold leastProbablePrime
  decide +kernel
theorem witness_NextppIsTheLeastProbablePrime :
    (withRegs 4660 0 0).discard = false ∧ leastProbablePrime ((withRegs 4660 0 0).reg 0) 4663 ∧ 4663 < 2 ^ 4096 :=
  ⟨rfl, witness_leastProbablePrime.1, by decide +kernel⟩

/-- A prefix of the table that does not divide the candidate leaves it alone. -/
theorem scan_keeps (ps qs : List Nat) (c r : Nat) (h : ∀ p ∈ ps, c % p ≠ 0) (hr : ScanResult qs c r) :
    ScanResult (ps ++ qs) c r := by
  induction ps with
  | nil => exact hr
  | cons p ps ih => exact .keep p _ c r (h p (by simp)) (ih fun q hq => h q (by simp [hq]))

/-- SearchIsTheSinglePass: from 997 the last table entry advances the candidate to 1009 (section 5.6). -/
theorem witness_scan_997 : ScanResult smallPrimes 997 1009 := by
  have e : smallPrimes = smallPrimes.take 167 ++ [997] := by decide +kernel
  rw [e]
  refine scan_keeps _ _ _ _ (by decide +kernel) (.advance 997 [] 997 1009 1009 (by decide) ?_ ?_ (.done 1009))
  · unfold leastProbablePrime
    decide +kernel
  · decide +kernel
theorem witness_SearchIsTheSinglePass :
    (withRegs 997 0 0).discard = false ∧ leastProbablePrime ((withRegs 997 0 0).reg 0) 997 ∧ 997 < 2 ^ 4096 ∧
    ScanResult smallPrimes 997 1009 := ⟨rfl, witness_leastProbablePrime.2, by decide +kernel, witness_scan_997⟩

/-- SearchNeverBelow1009, at its bound. -/
theorem witness_SearchNeverBelow1009 : search 998 = some 1009 := by decide +kernel

/-- A probable prime that no table entry divides is the result of the pass that starts with it. -/
theorem searchResult_of_undivided (a c : Nat) (h1 : leastProbablePrime a c) (h2 : c < Config.regLimit)
    (h3 : ∀ p ∈ smallPrimes, c % p ≠ 0) : SearchResult a c :=
  ⟨c, h1, h2, List.append_nil smallPrimes ▸ scan_keeps smallPrimes [] c c h3 (.done c)⟩
theorem search_results :
    SearchResult 4660 4663 ∧ SearchResult 22136 22147 ∧ SearchResult 917519 917519 :=
  ⟨searchResult_of_undivided _ _ witness_leastProbablePrime.1 (by decide +kernel) (by decide +kernel),
    searchResult_of_undivided _ _ (by unfold leastProbablePrime; decide +kernel) (by decide +kernel) (by decide +kernel),
    searchResult_of_undivided _ _ (by unfold leastProbablePrime; decide +kernel) (by decide +kernel) (by decide +kernel)⟩

/-- DeriveCommitsTheKey: the seed 12 34 56 78 (gcd 1), and 0E 00 0F 00 12 34 (gcd 65537). -/
def noKeySeed : State := withBytes 0 [0x0E, 0x00, 0x0F, 0x00, 0x12, 0x34]
theorem seed_halves :
    keyed.rangeValue (0#10).toNat ((4#10).toNat / 2) = 4660 ∧
    keyed.rangeValue ((0#10).toNat + (4#10).toNat / 2) ((4#10).toNat - (4#10).toNat / 2) = 22136 ∧
    noKeySeed.rangeValue (0#10).toNat ((6#10).toNat / 2) = 917519 ∧
    noKeySeed.rangeValue ((0#10).toNat + (6#10).toNat / 2) ((6#10).toNat - (6#10).toNat / 2) = 4660 := by decide +kernel
theorem witness_DeriveCommitsTheKey :
    keyed.discard = false ∧ (0#10).toNat + (4#10).toNat ≤ 1024 ∧
    SearchResult (keyed.rangeValue (0#10).toNat ((4#10).toNat / 2)) 4663 ∧
    SearchResult (keyed.rangeValue ((0#10).toNat + (4#10).toNat / 2) ((4#10).toNat - (4#10).toNat / 2)) 22147 ∧
    4663 * 22147 < 2 ^ 4096 ∧ Nat.gcd 65537 ((4663 - 1) * (22147 - 1)) = 1 := by
  rw [seed_halves.1, seed_halves.2.1]
  exact ⟨rfl, by decide, search_results.1, search_results.2.1, by decide +kernel, by decide +kernel⟩
theorem witness_DeriveFindsNoKey :
    noKeySeed.discard = false ∧ (0#10).toNat + (6#10).toNat ≤ 1024 ∧
    SearchResult (noKeySeed.rangeValue (0#10).toNat ((6#10).toNat / 2)) 917519 ∧
    SearchResult (noKeySeed.rangeValue ((0#10).toNat + (6#10).toNat / 2) ((6#10).toNat - (6#10).toNat / 2)) 4663 ∧
    917519 * 4663 < 2 ^ 4096 ∧ Nat.gcd 65537 ((917519 - 1) * (4663 - 1)) ≠ 1 := by
  rw [seed_halves.2.2.1, seed_halves.2.2.2]
  exact ⟨rfl, by decide, search_results.2.2, search_results.1, by decide +kernel, by decide +kernel⟩

/-- KeyGetCopiesTheMember. -/
theorem witness_KeyGetCopiesTheMember : keyed.discard = false ∧ keyed.keyValid = true := by decide

/-- RangeErrors: one byte too many, with each of its further hypotheses. -/
theorem witness_RangeErrors :
    (seededWith 1).discard = false ∧ 1024 < (1023#10).toNat + (2#10).toNat ∧ 2#10 ≠ 0#10 ∧ (seededWith 1).seeded = true ∧
    1 ≤ (2#10).toNat ∧ (2#10).toNat ≤ 31 ∧ 1024 < (994#10).toNat + (31#10).toNat ∧ (31#10).toNat ≤ 31 := by decide

/-- ConfigurationErrors: lengths 0 and 32. -/
theorem witness_ConfigurationErrors :
    State.reset.discard = false ∧ (0#10).toNat = 0 ∧ 31 < (32#10).toNat := by decide

/-- OverflowAndDomainErrors, clause by clause (sections 7.2 and 7.3): 2^4096 in 513 bytes; 256 for one byte; the greatest
register value for PR.NEXTPP and PR.SEARCH; 1023 bytes whose
second half is 512 bytes of FF; modulus 0. -/
theorem witness_overflow_load :
    (withBytes 0 [1]).discard = false ∧ (0#10).toNat + (513#10).toNat ≤ 1024 ∧
    2 ^ 4096 ≤ (withBytes 0 [1]).rangeValue (0#10).toNat (513#10).toNat := by decide +kernel
theorem witness_overflow_store :
    (withRegs 256 0 0).discard = false ∧ (1023#10).toNat + (1#10).toNat ≤ 1024 ∧
    256 ^ (1#10).toNat ≤ (withRegs 256 0 0).reg 0 := by decide
theorem greatest_value : (withRegs (2 ^ 4096 - 1) 0 0).reg 0 + 1 = 2 ^ 4096 ∧ ppt ((withRegs (2 ^ 4096 - 1) 0 0).reg 0) = false := by
  decide +kernel
theorem witness_overflow_nextpp :
    ∀ x, (withRegs (2 ^ 4096 - 1) 0 0).reg 0 ≤ x → x < 2 ^ 4096 → ppt x = false := by
  obtain ⟨h3, h4⟩ := greatest_value
  generalize (withRegs (2 ^ 4096 - 1) 0 0).reg 0 = m at h3 h4 ⊢
  rw [← h3]
  intro x h1 h2
  rw [Nat.le_antisymm (Nat.lt_succ_iff.mp h2) h1]
  exact h4
theorem no_searchResult (m : Nat) (h : ∀ x, m ≤ x → x < 2 ^ 4096 → ppt x = false) : ¬∃ r, SearchResult m r := by
  rintro ⟨r, c, ⟨h1, h2, -⟩, h3, -⟩
  unfold Config.regLimit Config.width at h3
  rw [h c h1 h3] at h2
  exact Bool.false_ne_true h2
theorem witness_overflow_search : ¬∃ r, SearchResult ((withRegs (2 ^ 4096 - 1) 0 0).reg 0) r :=
  no_searchResult _ witness_overflow_nextpp
def greatestSeed : State := withBytes 511 (List.replicate 512 0xFF)
theorem greatest_second_half :
    greatestSeed.rangeValue ((0#10).toNat + (1023#10).toNat / 2) ((1023#10).toNat - (1023#10).toNat / 2) =
      (withRegs (2 ^ 4096 - 1) 0 0).reg 0 := by
  refine Eq.trans (b := be (List.replicate 512 0xFF#8)) (rangeValue_withBytes 511 512 _ List.length_replicate) ?_
  have h1 := greatest_bytes
  have h2 := greatest_value.1
  generalize be (List.replicate 512 0xFF#8) = x at h1 ⊢
  generalize (withRegs (2 ^ 4096 - 1) 0 0).reg 0 = y at h2 ⊢
  rw [← h2] at h1
  exact Nat.succ.inj h1
theorem witness_overflow_derive :
    greatestSeed.discard = false ∧ (0#10).toNat + (1023#10).toNat ≤ 1024 ∧
    ¬∃ q, SearchResult
      (greatestSeed.rangeValue ((0#10).toNat + (1023#10).toNat / 2) ((1023#10).toNat - (1023#10).toNat / 2)) q := by
  rw [greatest_second_half]
  exact ⟨rfl, by decide, witness_overflow_search⟩
theorem witness_domain : State.reset.discard = false ∧ State.reset.reg 3 = 0 ∧ State.reset.reg 2 = 0 := by decide

/-! The invariants, each at a state that is not the reset state, with a step from it. -/

/-- A running setup in its draws: window full and equal to the pattern, bytes in BUF, the greatest register value, a key
held, one iteration left. -/
def busyState : State :=
  { withPattern (keyed.setReg 7 (2 ^ 4096 - 1)) [0x21] [0x21] with
      xs := 0x42021, seeded := true, iterRem := 1, phase := .drawing }

/-- The step of a block in its draws has a next state. -/
theorem busyState_steps : step busyState = .next busyState.reseedAndNext.tick := rfl

theorem witness_StepKeepsBufferCanonical :
    step busyState = .next busyState.reseedAndNext.tick ∧ memWf busyState.buf = true := ⟨rfl, by decide +kernel⟩
theorem witness_StepKeepsRegistersStorable :
    step busyState = .next busyState.reseedAndNext.tick ∧ RegistersStorable busyState :=
  ⟨rfl, by decide +kernel, by decide +kernel, by decide +kernel, by decide +kernel, by decide +kernel,
    by decide +kernel⟩
theorem witness_StepKeepsWindowSound : step busyState = .next busyState.reseedAndNext.tick ∧ WindowSound busyState :=
  ⟨rfl, by decide +kernel, by decide +kernel, by decide +kernel, by decide +kernel⟩
theorem witness_StepKeepsKeySound : step busyState = .next busyState.reseedAndNext.tick ∧ KeySound busyState :=
  ⟨rfl, fun _ => ⟨4660, 22136, search_results.1, search_results.2.1⟩, by decide +kernel, by decide +kernel, by decide +kernel,
    by decide +kernel, by decide +kernel, by decide +kernel, by decide +kernel⟩
theorem witness_StepKeepsSequencerSound :
    step busyState = .next busyState.reseedAndNext.tick ∧ SequencerSound busyState :=
  ⟨rfl, by decide +kernel, by decide +kernel, by decide +kernel, by decide +kernel⟩
theorem witness_StepKeepsResponseSound :
    step (State.reset.answered .ok 7#32) = .next (State.reset.answered .ok 7#32) ∧
    ResponseSound (State.reset.answered .ok 7#32) := by
  refine ⟨rfl, fun r h => ?_⟩
  cases h
  exact ⟨⟨.ok, rfl⟩, fun h => absurd rfl h⟩

/-- TotientIsNeverObserved. -/
theorem witness_TotientIsNeverObserved :
    step busyState = .next busyState.reseedAndNext.tick ∧ busyState.kphi ≠ 5 := ⟨rfl, by decide⟩

/-- PrbgNewPreparesTheBlock: the greatest length, both ranges ending at BUFSZ. -/
theorem witness_PrbgNewPreparesTheBlock :
    (List.replicate 64 (1 : Byte)).length = 64 ∧ (List.replicate 32 (2 : Byte)).length = 32 ∧
    (prbgNew (List.replicate 64 1) (List.replicate 32 2) 31 1 960#10 993#10).isSome = true ∧
    (960#10).toNat + 64 ≤ 1024 ∧ (993#10).toNat + 31 ≤ 1024 ∧ State.reset.discard = false := by decide +kernel

end Sys2Proof.Tests
end

section
/-! PROOFS. What every command can do, and the bounds of the values that the engines compute. -/

namespace Sys2Proof.Machine

/-! What a command's effect computes. -/

/-- The command either fails a check, with a code that is not OK, or computes a state with the given property. -/
inductive Ensures (Q : State → Prop) : Effect → Prop where
  | error (c : Code) : c ≠ .ok → Ensures Q (.error c)
  | ok (u : State) (v : BitVec 32) : Q u → Ensures Q (.ok (u, v))

theorem Ensures.ite {Q : State → Prop} {c : Prop} [Decidable c] {a b : Effect} (ha : c → Ensures Q a)
    (hb : ¬c → Ensures Q b) : Ensures Q (if c then a else b) := by
  split
  · next h => exact ha h
  · next h => exact hb h

/-- What a command can answer, in terms of what its effect ensures. -/
theorem State.command_ensures {Q : State → Prop} {s t : State} {e : Effect} (he : Ensures Q e)
    (h : s.command e = .next t) :
    (∃ c, c ≠ .ok ∧ t = s.respond c 0#32) ∨ (s.discard = false ∧ ∃ u v, Q u ∧ t = u.respond .ok v) := by
  obtain ⟨-, ht⟩ | ⟨hd, u, v, rfl, ht⟩ | ⟨-, c, rfl, ht⟩ := State.command_cases h
  · exact .inl ⟨.eDiscard, by decide, ht⟩
  · cases he with
    | ok _ _ hu => exact .inr ⟨hd, u, v, hu, ht⟩
  · cases he with
    | error _ hc => exact .inl ⟨c, hc, ht⟩

/-- The ten codes have ten different numbers (60_exceptions.md R286). -/
theorem Code.bits_injective : Function.Injective Code.bits := by
  intro a b
  cases a <;> cases b <;> simp [Code.bits]

theorem State.respond_code {s : State} {c d : Code} {v w : BitVec 32}
    (h : (s.respond c v).response = some { code := d.bits, val := w }) : c = d := by
  simp only [State.respond_response, Option.some.injEq, Response.mk.injEq] at h
  exact Code.bits_injective h.1

/-- A command answered OK has the state its effect ensures, but for the response. -/
theorem State.command_answered_ok {Q : State → Prop} {s t : State} {e : Effect} {v : BitVec 32} (he : Ensures Q e)
    (h : s.command e = .next t) (hv : t.response = some { code := Code.bits .ok, val := v }) :
    ∃ u w, Q u ∧ t = u.respond .ok w := by
  obtain ⟨c, hc, rfl⟩ | ⟨-, hu⟩ := State.command_ensures he h
  · exact absurd (State.respond_code hv) hc
  · exact hu

/-- A command answered with another code than OK changes nothing but the port (60_exceptions.md R296). -/
theorem State.command_answered_error {Q : State → Prop} {s t : State} {e : Effect} {c : Code} {v : BitVec 32}
    (he : Ensures Q e) (h : s.command e = .next t) (hv : t.response = some { code := c.bits, val := v })
    (hc : c ≠ .ok) : t = s.respond c 0#32 := by
  obtain ⟨d, -, rfl⟩ | ⟨-, u, w, -, rfl⟩ := State.command_ensures he h
  · rw [State.respond_code hv]
  · exact absurd (State.respond_code hv).symm hc

/-! The values that the engines compute fit a register (10_state.md R22, R38). -/

theorem gcdLoop_lt {limit : Nat} (f a b : Nat) (ha : a < limit) (hb : b < limit) : gcdLoop f a b < limit := by
  induction f generalizing a b with
  | zero => exact ha
  | succ f ih =>
    unfold gcdLoop
    split
    · exact ha
    · next h => exact ih _ _ hb (Nat.lt_trans (Nat.mod_lt a (Nat.pos_of_ne_zero h)) hb)

theorem euclidGcd_lt {limit a b : Nat} (ha : a < limit) (hb : b < limit) : euclidGcd a b < limit :=
  gcdLoop_lt b a b ha hb

theorem modexpLoop_lt {m : Nat} (hm : 0 < m) (f r b e : Nat) (hr : r < m) : modexpLoop f r b e m < m := by
  induction f generalizing r b e with
  | zero => exact hr
  | succ f ih =>
    unfold modexpLoop
    split
    · exact hr
    · refine ih _ _ _ ?_
      split
      · exact Nat.mod_lt _ hm
      · exact hr

theorem modexp_lt {m : Nat} (hm : 0 < m) (b e : Nat) : modexp b e m < m :=
  modexpLoop_lt hm e _ _ e (Nat.mod_lt 1 hm)

theorem modinv_lt {a m x : Nat} (hm : 0 < m) (h : modinv a m = some x) : x < m := by
  unfold modinv at h
  simp only [Option.ite_none_right_eq_some, Option.some.injEq] at h
  obtain ⟨-, rfl⟩ := h
  have := Int.emod_lt_of_pos (modinvLoop (a % m) m (a % m) 0 1).2 (Int.natCast_pos.mpr hm)
  omega

theorem nextpp_lt {n v : Nat} (h : nextpp n = some v) : v < Config.regLimit :=
  ((nextpp_eq_some_iff n v).mp h).2

theorem searchScan_lt {ps : List Nat} {c r : Nat} (hc : c < Config.regLimit) (h : searchScan ps c = some r) :
    r < Config.regLimit := by
  induction ps generalizing c with
  | nil =>
    rw [searchScan_nil, Option.some.injEq] at h
    exact h ▸ hc
  | cons sp ps ih =>
    rw [searchScan_cons] at h
    split at h
    · cases hn : nextpp (c + 1) with
      | none => simp [hn] at h
      | some c' => exact ih (nextpp_lt hn) (by simpa [hn] using h)
    · exact ih hc h

theorem search_lt {a r : Nat} (h : search a = some r) : r < Config.regLimit := by
  unfold search at h
  cases hn : nextpp a with
  | none => simp [hn] at h
  | some c => exact searchScan_lt (nextpp_lt hn) (by simpa [hn] using h)

theorem publicExponent_lt : Config.publicExponent < Config.regLimit :=
  Nat.lt_of_lt_of_le (by decide : Config.publicExponent < 2 ^ 17) (Nat.pow_le_pow_right (by decide) (by decide))

/-- Every member of the key material fits a key register. -/
structure KeyMaterial.Storable (k : KeyMaterial) : Prop where
  p : k.p < Config.regLimit
  q : k.q < Config.regLimit
  n : k.n < Config.regLimit
  phi : k.phi < Config.regLimit
  d : k.d < Config.regLimit

/-- What the steps after the searches can answer (45_drsa.md R247, R250): an error code, or the key material of the two
primes, with the product below 2^W and the exponent an inverse modulo the totient. -/
theorem keyFromPrimes_cases (p q : Nat) :
    (∃ c, c ≠ .ok ∧ keyFromPrimes p q = .error c) ∨
    (p * q < Config.regLimit ∧ Config.publicExponent < (p - 1) * (q - 1) ∧
      ∃ d, modinv Config.publicExponent ((p - 1) * (q - 1)) = some d ∧
        keyFromPrimes p q = .ok { p := p, q := q, n := p * q, phi := (p - 1) * (q - 1), d := d }) := by
  unfold keyFromPrimes
  simp only [storable, Bool.not_eq_true', decide_eq_false_iff_not]
  by_cases hn : p * q < Config.regLimit
  · rw [if_neg (not_not_intro hn)]
    by_cases hphi : 1 < Config.publicExponent ∧ Config.publicExponent < (p - 1) * (q - 1)
    · rw [if_neg (not_not_intro hphi)]
      split
      · exact .inl ⟨.eDerive, by decide, rfl⟩
      · cases hd : modinv Config.publicExponent ((p - 1) * (q - 1)) with
        | none => exact .inl ⟨.eDerive, by decide, rfl⟩
        | some d => exact .inr ⟨hn, hphi.2, d, rfl, rfl⟩
    · rw [if_pos hphi]
      exact .inl ⟨.eDerive, by decide, rfl⟩
  · rw [if_pos hn]
    exact .inl ⟨.eOverflow, by decide, rfl⟩

/-- What the derivation can answer: an error code, or the result of `keyFromPrimes` on the two search results. -/
theorem deriveKey_cases (seed : List Byte) :
    (∃ c, c ≠ .ok ∧ deriveKey seed = .error c) ∨
    ∃ p q, search (seedHalves seed).1 = some p ∧ search (seedHalves seed).2 = some q ∧
      deriveKey seed = keyFromPrimes p q := by
  unfold deriveKey
  cases hp : search (seedHalves seed).1 with
  | none => exact .inl ⟨.eOverflow, by decide, rfl⟩
  | some p =>
    cases hq : search (seedHalves seed).2 with
    | none => exact .inl ⟨.eOverflow, by decide, rfl⟩
    | some q => exact .inr ⟨p, q, rfl, rfl, rfl⟩

theorem deriveKey_error_ne_ok {seed : List Byte} {c : Code} (h : deriveKey seed = .error c) : c ≠ .ok := by
  obtain ⟨d, hd, he⟩ | ⟨p, q, -, -, he⟩ := deriveKey_cases seed
  · cases he.symm.trans h
    exact hd
  · obtain ⟨d, hd, hk⟩ | ⟨-, -, d, -, hk⟩ := keyFromPrimes_cases p q
    · cases (he.trans hk).symm.trans h
      exact hd
    · cases (he.trans hk).symm.trans h

theorem keyFromPrimes_storable {p q : Nat} {k : KeyMaterial} (hp : p < Config.regLimit) (hq : q < Config.regLimit)
    (h : keyFromPrimes p q = .ok k) : k.Storable := by
  obtain ⟨c, -, hk⟩ | ⟨hn, hphi, d, hd, hk⟩ := keyFromPrimes_cases p q
  · cases hk.symm.trans h
  · cases hk.symm.trans h
    have hle : (p - 1) * (q - 1) ≤ p * q := Nat.mul_le_mul (Nat.sub_le p 1) (Nat.sub_le q 1)
    have hphi_lt := Nat.lt_of_le_of_lt hle hn
    exact ⟨hp, hq, hn, hphi_lt, Nat.lt_trans (modinv_lt (Nat.zero_lt_of_lt hphi) hd) hphi_lt⟩

theorem deriveKey_storable {seed : List Byte} {k : KeyMaterial} (h : deriveKey seed = .ok k) : k.Storable := by
  obtain ⟨c, -, he⟩ | ⟨p, q, hp, hq, he⟩ := deriveKey_cases seed
  · cases he.symm.trans h
  · exact keyFromPrimes_storable (search_lt hp) (search_lt hq) (he ▸ h)

theorem RegistersStorable.keyValue_lt {s : State} (h : RegistersStorable s) (sel : KeySel) :
    s.keyValue sel < Config.regLimit := by
  cases sel with
  | pubN => exact h.kn
  | pubE => exact publicExponent_lt
  | privD => exact h.kd
  | privP => exact h.kp
  | privQ => exact h.kq

/-! What a command can do. -/

/-- The changes of state that a command answered OK can make, each with the checks it has passed. A register is given a
value that fits wherever all registers do. -/
inductive Update (s : State) : State → Prop where
  | same : Update s s
  | stream (x : U64) : s.seeded = true → Update s (s.setXs x)
  | reseed (x : U64) : Update s { s.setXs x with seeded := true }
  | cell (off : Off) (b : Byte) : cellFits off = true → Update s { s with buf := memWrite s.buf off.toNat b }
  | range (off : Off) (bytes : List Byte) : off.toNat + bytes.length ≤ Config.bufSize →
      Update s (s.writeRange off bytes)
  | fill (off : Off) (bytes : List Byte) (x : U64) : s.seeded = true →
      off.toNat + bytes.length ≤ Config.bufSize → Update s ((s.writeRange off bytes).setXs x)
  | pattern (bytes : List Byte) : 0 < bytes.length → bytes.length ≤ Config.maxPattern →
      Update s (s.loadPattern bytes)
  | push (b : Byte) : s.patValid = true → Update s (s.swPush b)
  | clear : s.patValid = true → Update s s.clearWindow
  | register (r : Reg) (v : Nat) : (RegistersStorable s → v < Config.regLimit) → Update s (s.setReg r v)
  | key (seed : List Byte) (k : KeyMaterial) : deriveKey seed = .ok k → Update s (s.commitKey k)

/-- Everything a command can do to the state it finds. -/
inductive Answer (s : State) : Instr → State → Prop where
  | error (i : Instr) (c : Code) : c ≠ .ok → Answer s i (s.respond c 0#32)
  | done (i : Instr) (u : State) (v : BitVec 32) : s.discard = false → Update s u → Answer s i (u.respond .ok v)
  | status : Answer s .sysStatus (s.respond .ok s.statusWord)
  | reset : Answer s .sysReset (s.resetBlock.respond .ok 0#32)
  | setupBegins (arg : BitVec 32) : s.discard = false → s.seeded = true → s.patValid = true → arg ≠ 0#32 →
      s.pins.cancelReq = false → Answer s (.prbgSetup arg) (s.setupEntry arg)
  | setupCancelled (arg : BitVec 32) : s.discard = false → s.seeded = true → s.patValid = true → arg ≠ 0#32 →
      s.pins.cancelReq = true → Answer s (.prbgSetup arg) (s.setupEntry arg).cancelSetup

theorem State.command_answer {s t : State} {e : Effect} (i : Instr) (he : Ensures (Update s) e)
    (h : s.command e = .next t) : Answer s i t := by
  obtain ⟨c, hc, rfl⟩ | ⟨hd, u, v, hu, rfl⟩ := State.command_ensures he h
  · exact .error i c hc
  · exact .done i u v hd hu

theorem rangeFits_iff {off len : Off} : rangeFits off len = true ↔ off.toNat + len.toNat ≤ Config.bufSize := by
  simp [rangeFits]

@[simp] theorem State.readRange_length (s : State) (off len : Off) : (s.readRange off len).length = len.toNat := by
  simp [State.readRange]

/-- A command's check of a BUF range comes first and gives E_RANGE. -/
theorem Ensures.range {Q : State → Prop} {off len : Off} {e : Effect}
    (h : off.toNat + len.toNat ≤ Config.bufSize → Ensures Q e) :
    Ensures Q (if !rangeFits off len then .error .eRange else e) :=
  .ite (fun _ => .error _ (by decide)) fun hr => h (rangeFits_iff.mp (by simpa using hr))

/-- A command's check of one Boolean condition. -/
theorem Ensures.check {Q : State → Prop} {b : Bool} {c : Code} {e : Effect} (hc : c ≠ .ok)
    (h : b = true → Ensures Q e) : Ensures Q (if !b then .error c else e) :=
  .ite (fun _ => .error _ hc) fun hb => h (by simpa using hb)

theorem execPrbgSetup_answer {arg : BitVec 32} {s t : State} (h : execPrbgSetup arg s = .next t) :
    Answer s (.prbgSetup arg) t := by
  unfold execPrbgSetup State.raise at h
  split at h
  · cases h
    exact .error _ _ (by decide)
  · next hd =>
    split at h
    · cases h
      exact .error _ _ (by decide)
    · next hchecks =>
      simp only [Bool.or_eq_true, Bool.not_eq_true', decide_eq_true_eq, not_or, Bool.not_eq_false] at hchecks
      obtain ⟨⟨hseeded, hpat⟩, harg⟩ := hchecks
      have hopen : s.discard = false := by simpa using hd
      split at h
      · next hc => cases h; exact .setupCancelled arg hopen hseeded hpat harg hc
      · next hc => cases h; exact .setupBegins arg hopen hseeded hpat harg (by simpa using hc)

/-- Every command does one of the things that `Answer` lists. -/
theorem exec_answer {i : Instr} {s t : State} (h : exec i s = .next t) : Answer s i t := by
  cases i with
  | sysStatus => cases h; exact .status
  | sysReset => cases h; exact .reset
  | prbgSetup arg => exact execPrbgSetup_answer h
  | bufWr off byte =>
    exact State.command_answer _ (.ite (fun hf => .ok _ _ (.cell off byte hf)) fun _ => .error _ (by decide)) h
  | bufRd off =>
    exact State.command_answer _ (.ite (fun _ => .ok _ _ .same) fun _ => .error _ (by decide)) h
  | xsReseed off len =>
    exact State.command_answer _ (.ite (fun _ => .error _ (by decide)) fun _ => .range fun _ => .ok _ _ (.reseed _)) h
  | xsNext => exact State.command_answer _ (.check (by decide) fun hs => .ok _ _ (.stream _ hs)) h
  | xsFill off len =>
    exact State.command_answer _ (.check (by decide) fun hs => .range fun hr =>
      .ok _ _ (.fill off _ _ hs (by simpa using hr))) h
  | swLoadpat off len =>
    refine State.command_answer _ (.ite (fun _ => .error _ (by decide)) fun hl => .range fun _ =>
      .ok _ _ (.pattern _ ?_ ?_)) h
    all_goals rw [State.readRange_length]
    · exact Nat.pos_of_ne_zero fun hz => hl (.inl (BitVec.eq_of_toNat_eq hz))
    · exact Nat.le_of_not_lt fun hlt => hl (.inr hlt)
  | swPush k => exact State.command_answer _ (.check (by decide) fun hp => .ok _ _ (.push k hp)) h
  | swMatch => exact State.command_answer _ (.check (by decide) fun _ => .ok _ _ .same) h
  | swClear => exact State.command_answer _ (.check (by decide) fun hp => .ok _ _ (.clear hp)) h
  | bnLoad gd off len =>
    exact State.command_answer _ (.range fun _ => .check (by decide) fun hv =>
      .ok _ _ (.register gd _ fun _ => of_decide_eq_true hv)) h
  | bnStore gs off len =>
    exact State.command_answer _ (.range fun hr => .ite (fun _ => .error _ (by decide)) fun _ =>
      .ok _ _ (.range off _ (by simpa using hr))) h
  | bnGcd gd gs1 gs2 =>
    exact State.command_answer _ (.ok _ _ (.register gd _ fun hs => euclidGcd_lt (hs.general gs1) (hs.general gs2))) h
  | bnModexp gd gs1 gs2 gs3 =>
    exact State.command_answer _ (.ite (fun _ => .error _ (by decide)) fun hm => .ok _ _ (.register gd _ fun hs =>
      Nat.lt_trans (modexp_lt (Nat.pos_of_ne_zero hm) _ _) (hs.general gs3))) h
  | bnModinv gd gs1 gs2 =>
    refine State.command_answer _ (.ite (fun _ => .error _ (by decide)) fun hm => ?_) h
    cases hx : modinv (s.reg gs1) (s.reg gs2) with
    | none => exact .error _ (by decide)
    | some x =>
      exact .ok _ _ (.register gd x fun hs => Nat.lt_trans (modinv_lt (Nat.pos_of_ne_zero hm) hx) (hs.general gs2))
  | prSieve gs1 k => exact State.command_answer _ (.ok _ _ .same) h
  | prPptest gs1 => exact State.command_answer _ (.ok _ _ .same) h
  | prNextpp gd gs1 =>
    refine State.command_answer _ ?_ h
    cases hv : nextpp (s.reg gs1) with
    | none => exact .error _ (by decide)
    | some v => exact .ok _ _ (.register gd v fun _ => nextpp_lt hv)
  | prSearch gd gs1 =>
    refine State.command_answer _ ?_ h
    cases hv : search (s.reg gs1) with
    | none => exact .error _ (by decide)
    | some v => exact .ok _ _ (.register gd v fun _ => search_lt hv)
  | drsaDerive off len =>
    refine State.command_answer _ (.range fun _ => ?_) h
    cases hk : deriveKey (s.readRange off len) with
    | error c => exact .error c (deriveKey_error_ne_ok hk)
    | ok k => exact .ok _ _ (.key _ k hk)
  | keyGet gd sel =>
    exact State.command_answer _ (.check (by decide) fun _ => .ok _ _ (.register gd _ fun hs => hs.keyValue_lt sel)) h

end Sys2Proof.Machine
end

section
/-! PROOFS. What every step can do, the properties that every step but a reset keeps, and the invariants of the data. -/

namespace Sys2Proof.Machine

/-! What a step can do. -/

/-- Everything a step can do, by the hard reset pin, the phase and the packet (42_prbg_setup.md R174). -/
inductive Transition (s : State) : State → Prop where
  | hardReset : s.pins.hardReset = true → Transition s s.resetBlock.tick
  | wait : s.pins.hardReset = false → s.phase = .idle → s.packets = [] → Transition s s.tick
  | illegal (p : Packet) (rest : List Packet) (e : IllegalPacket) : s.pins.hardReset = false → s.phase = .idle →
      s.packets = p :: rest → decode p = .error e → Transition s ((s.accept rest).respond .eIllegal 0#32).tick
  | run (p : Packet) (rest : List Packet) (i : Instr) (t : State) : s.pins.hardReset = false → s.phase = .idle →
      s.packets = p :: rest → decode p = .ok i → exec i (s.accept rest) = .next t → Transition s t.tick
  | cancel : s.pins.hardReset = false → s.phase = .sampling → s.pins.cancelReq = true → Transition s s.cancelSetup.tick
  | byte : s.pins.hardReset = false → s.phase = .sampling → s.pins.cancelReq = false → Transition s s.byteStep.tick
  | reseed : s.pins.hardReset = false → s.phase = .drawing → Transition s s.reseedAndNext.tick

/-- Every command answers a next state. -/
theorem exec_next (i : Instr) (s : State) : ∃ t, exec i s = .next t := by
  cases i with
  | sysStatus => exact ⟨_, rfl⟩
  | sysReset => exact ⟨_, rfl⟩
  | prbgSetup arg =>
    change ∃ t, execPrbgSetup arg s = .next t
    unfold execPrbgSetup State.raise
    split_ifs <;> exact ⟨_, rfl⟩
  | bnGcd | prSieve | prPptest => exact State.command_next s (.ok (_, _))
  | _ => exact State.command_next s _

theorem State.idleStep_transition {s t : State} (hr : s.pins.hardReset = false) (hp : s.phase = .idle)
    (h : s.idleStep = .next t) : Transition s t := by
  obtain ⟨hs, he⟩ | ⟨p, rest, hs, ⟨e, hd, he⟩ | ⟨i, hd, hx⟩⟩ := s.idleStep_cases
  · cases he.symm.trans h
    exact .wait hr hp hs
  · cases he.symm.trans h
    exact .illegal p rest e hr hp hs hd
  · obtain ⟨u, hu⟩ := exec_next i (s.accept rest)
    obtain ⟨v, hv, he⟩ | ⟨f, hf⟩ | ⟨r, hf⟩ := hx
    · cases he.symm.trans h
      exact .run p rest i v hr hp hs hd hv
    · cases hu.symm.trans hf
    · cases hu.symm.trans hf

/-- Every step makes one of the transitions. -/
theorem step_transition {s t : State} (h : step s = .next t) : Transition s t := by
  obtain ⟨hr, he⟩ | ⟨hr, hp, he⟩ | ⟨hr, hp, hc, he⟩ | ⟨hr, hp, hc, he⟩ | ⟨hr, hp, he⟩ := step_cases s
  · cases he.symm.trans h
    exact .hardReset hr
  · exact State.idleStep_transition hr hp (he.symm.trans h)
  · cases he.symm.trans h
    exact .cancel hr hp hc
  · cases he.symm.trans h
    exact .byte hr hp hc
  · cases he.symm.trans h
    exact .reseed hr hp

/-! Properties that everything but a reset keeps. -/

/-- A property that does not speak of the port, the packets and the levels, and that every change of state but a reset
keeps. -/
structure Kept (P : State → Prop) : Prop where
  respond : ∀ s c v, P s → P (s.respond c v)
  accept : ∀ s rest, P s → P (s.accept rest)
  tick : ∀ s, P s → P s.tick
  update : ∀ s u, Update s u → P s → P u
  setupEntry : ∀ s arg, P s → P (s.setupEntry arg)
  cancelSetup : ∀ s, P s → P s.cancelSetup
  byteStep : ∀ s, P s → P s.byteStep
  reseedAndNext : ∀ s, P s → P s.reseedAndNext

/-- The step from the state is a hard reset or takes a SYS.RESET. -/
def State.takesReset (s : State) : Prop :=
  s.pins.hardReset = true ∨ s.phase = .idle ∧ ∃ p rest, s.packets = p :: rest ∧ decode p = .ok .sysReset

/-- A command other than SYS.RESET keeps the property; SYS.RESET leaves the reset state. -/
theorem Kept.exec {P : State → Prop} (hP : Kept P) {i : Instr} {s t : State} (h : exec i s = .next t) (hs : P s) :
    P t ∨ i = .sysReset ∧ t = s.resetBlock.respond .ok 0#32 := by
  cases exec_answer h with
  | error _ c _ => exact .inl (hP.respond _ _ _ hs)
  | done _ u v _ hu => exact .inl (hP.respond _ _ _ (hP.update _ _ hu hs))
  | status => exact .inl (hP.respond _ _ _ hs)
  | reset => exact .inr ⟨rfl, rfl⟩
  | setupBegins arg => exact .inl (hP.setupEntry _ _ hs)
  | setupCancelled arg => exact .inl (hP.cancelSetup _ (hP.setupEntry _ _ hs))

/-- A step that takes no reset keeps the property; one that does leaves the reset state, but for the port, the packets and
the levels. -/
theorem Kept.step_or_reset {P : State → Prop} (hP : Kept P) {s t : State} (h : step s = .next t) (hs : P s) :
    P t ∨ s.takesReset ∧
      (t = s.resetBlock.tick ∨ ∃ rest, t = ((s.accept rest).resetBlock.respond .ok 0#32).tick) := by
  cases step_transition h with
  | hardReset hr => exact .inr ⟨.inl hr, .inl rfl⟩
  | wait => exact .inl (hP.tick _ hs)
  | illegal p rest e => exact .inl (hP.tick _ (hP.respond _ _ _ (hP.accept _ _ hs)))
  | run p rest i u _ hidle hp hd hx =>
    obtain hu | ⟨rfl, rfl⟩ := hP.exec hx (hP.accept _ rest hs)
    · exact .inl (hP.tick _ hu)
    · exact .inr ⟨.inr ⟨hidle, p, rest, hp, hd⟩, .inr ⟨rest, rfl⟩⟩
  | cancel => exact .inl (hP.tick _ (hP.cancelSetup _ hs))
  | byte => exact .inl (hP.tick _ (hP.byteStep _ hs))
  | reseed => exact .inl (hP.tick _ (hP.reseedAndNext _ hs))

/-- A property that the reset state has too is kept by every step. -/
theorem Kept.step {P : State → Prop} (hP : Kept P) (hreset : ∀ s, P (State.resetBlock s)) {s t : State}
    (h : step s = .next t) (hs : P s) : P t := by
  obtain ht | ⟨-, rfl | ⟨rest, rfl⟩⟩ := hP.step_or_reset h hs
  · exact ht
  · exact hP.tick _ (hreset s)
  · exact hP.tick _ (hP.respond _ _ _ (hreset _))

/-! BUF. -/

theorem Update.keeps_memWf {s u : State} (h : Update s u) (hs : memWf s.buf = true) : memWf u.buf = true := by
  cases h with
  | cell off b hf => exact memWrite_wf b (of_decide_eq_true hf) hs
  | range off bytes hr => exact memWriteRange_wf bytes hr hs
  | fill off bytes x _ hr => exact memWriteRange_wf bytes hr hs
  | push b => simpa using hs
  | _ => exact hs

theorem kept_memWf : Kept fun s => memWf s.buf = true where
  respond _ _ _ hs := hs
  accept _ _ hs := hs
  tick _ hs := hs
  update _ _ hu hs := hu.keeps_memWf hs
  setupEntry _ _ hs := hs
  cancelSetup _ hs := hs
  byteStep _ hs := by simpa using hs
  reseedAndNext _ hs := by simpa using hs

/-- Settles O53: every write lies below BUFSZ, and such a write keeps the form. -/
theorem stepKeepsBufferCanonical : Obligations.StepKeepsBufferCanonical :=
  fun _ _ h hs => kept_memWf.step (fun _ => reset_buf_wf) h hs

/-! The big registers. -/

/-- The invariant speaks of the big registers alone. -/
theorem RegistersStorable.of_eq {s t : State} (hs : RegistersStorable s) (hg : t.g = s.g) (hp : t.kp = s.kp)
    (hq : t.kq = s.kq) (hn : t.kn = s.kn) (hphi : t.kphi = s.kphi) (hd : t.kd = s.kd) : RegistersStorable t where
  general r := by simpa [State.reg, hg] using hs.general r
  kp := hp ▸ hs.kp
  kq := hq ▸ hs.kq
  kn := hn ▸ hs.kn
  kphi := hphi ▸ hs.kphi
  kd := hd ▸ hs.kd

theorem RegistersStorable.setReg {s : State} (hs : RegistersStorable s) (r : Reg) {v : Nat} (hv : v < Config.regLimit) :
    RegistersStorable (s.setReg r v) where
  general r' := by
    rw [State.setReg_reg]
    split
    · exact hv
    · exact hs.general r'
  kp := hs.kp
  kq := hs.kq
  kn := hs.kn
  kphi := hs.kphi
  kd := hs.kd

theorem RegistersStorable.commitKey {s : State} (hs : RegistersStorable s) {k : KeyMaterial} (hk : k.Storable) :
    RegistersStorable (s.commitKey k) where
  general := hs.general
  kp := hk.p
  kq := hk.q
  kn := hk.n
  kphi := hk.phi
  kd := hk.d

theorem registersStorable_reset : RegistersStorable State.reset := by
  have hpos : 0 < Config.regLimit := Nat.zero_lt_of_lt publicExponent_lt
  refine ⟨fun r => ?_, hpos, hpos, hpos, hpos, hpos⟩
  simpa [State.reg, State.reset] using hpos

theorem Update.keeps_registersStorable {s u : State} (h : Update s u) (hs : RegistersStorable s) :
    RegistersStorable u := by
  cases h with
  | register r v hv => exact hs.setReg r (hv hs)
  | key seed k hk => exact hs.commitKey (deriveKey_storable hk)
  | push b => exact hs.of_eq (by simp) (by simp) (by simp) (by simp) (by simp) (by simp)
  | _ => exact hs.of_eq rfl rfl rfl rfl rfl rfl

theorem kept_registersStorable : Kept RegistersStorable where
  respond _ _ _ hs := hs.of_eq rfl rfl rfl rfl rfl rfl
  accept _ _ hs := hs.of_eq rfl rfl rfl rfl rfl rfl
  tick _ hs := hs.of_eq rfl rfl rfl rfl rfl rfl
  update _ _ hu hs := hu.keeps_registersStorable hs
  setupEntry _ _ hs := hs.of_eq rfl rfl rfl rfl rfl rfl
  cancelSetup _ hs := hs.of_eq rfl rfl rfl rfl rfl rfl
  byteStep _ hs := hs.of_eq (by simp) (by simp) (by simp) (by simp) (by simp) (by simp)
  reseedAndNext _ hs := hs.of_eq (by simp) (by simp) (by simp) (by simp) (by simp) (by simp)

/-- Settles O54: every engine computes values that fit. -/
theorem stepKeepsRegistersStorable : Obligations.StepKeepsRegistersStorable :=
  fun _ _ h hs => kept_registersStorable.step
    (fun _ => registersStorable_reset.of_eq rfl rfl rfl rfl rfl rfl) h hs

/-! The window. -/

/-- The invariant speaks of PATVALID, the pattern and the window alone. -/
theorem WindowSound.of_eq {s t : State} (hs : WindowSound s) (hv : t.patValid = s.patValid) (hl : t.patLen = s.patLen)
    (hp : t.pat = s.pat) (hn : t.winLen = s.winLen) (hw : t.win = s.win) : WindowSound t where
  validIffLength := by rw [hv, hl]; exact hs.validIffLength
  withinCapacity := by rw [hn, hl]; exact hs.withinCapacity
  patRest := by simpa only [hl, hp] using hs.patRest
  winRest := by simpa only [hn, hw] using hs.winRest

/-- An empty window is sound wherever the pattern is. -/
theorem WindowSound.emptied {s t : State} (hs : WindowSound s) (hv : t.patValid = s.patValid)
    (hl : t.patLen = s.patLen) (hp : t.pat = s.pat) (hn : t.winLen = 0) (hw : t.win = Vector.replicate 31 0#8) :
    WindowSound t where
  validIffLength := by rw [hv, hl]; exact hs.validIffLength
  withinCapacity := by rw [hn]; exact Fin.zero_le _
  patRest := by simpa only [hl, hp] using hs.patRest
  winRest i _ := by simp [hw]

theorem windowSound_loadPattern (s : State) {bytes : List Byte} (hpos : 0 < bytes.length)
    (hmax : bytes.length ≤ Config.maxPattern) : WindowSound (s.loadPattern bytes) := by
  have hlen : (s.loadPattern bytes).patLen.val = bytes.length := Nat.mod_eq_of_lt (Nat.lt_succ_of_le hmax)
  refine ⟨?_, Fin.zero_le _, fun i hi => ?_, fun i _ => by simp⟩
  · rw [hlen]
    exact ⟨fun _ => hpos, fun _ => rfl⟩
  · rw [hlen] at hi
    simp [entriesOf_getElem, List.getElem?_eq_none hi]

theorem WindowSound.swPush {s : State} (hs : WindowSound s) (b : Byte) : WindowSound (s.swPush b) := by
  obtain ⟨hlt, he⟩ | ⟨hfull, he⟩ := s.swPush_cases b
  · have hlen : (s.winLen + 1).val = s.winLen.val + 1 := by
      have := s.patLen.isLt
      rw [Fin.val_add_one_of_lt' (n := 32)]
      omega
    rw [he]
    refine ⟨hs.validIffLength, ?_, hs.patRest, fun i hi => ?_⟩
    · rw [Fin.le_def, hlen]
      exact hlt
    · simp only [hlen] at hi
      rw [Vector.getElem_setIfInBounds_ne _ (by omega)]
      exact hs.winRest i (by omega)
  · have hlen : s.winLen.val = s.patLen.val := Nat.le_antisymm hs.withinCapacity (Nat.le_of_not_lt hfull)
    rw [he]
    refine ⟨hs.validIffLength, hs.withinCapacity, hs.patRest, fun i hi => ?_⟩
    simp only [hlen] at hi
    rw [shiftIn_getElem _ _ _ _ i.isLt, if_neg (by omega), if_neg (by omega)]
    exact hs.winRest i (by omega)

theorem WindowSound.byteStep {s : State} (hs : WindowSound s) : WindowSound s.byteStep := by
  have hstream : WindowSound (s.setXs (xsStep s.xs)) := hs.of_eq rfl rfl rfl rfl rfl
  have hdraw : WindowSound s.drawAndPush := hstream.swPush (xsOut (xsStep s.xs))
  exact hdraw.of_eq (by simp) (by simp) (by simp) (by simp) (by simp)

theorem windowSound_reset : WindowSound State.reset where
  validIffLength := by decide
  withinCapacity := by decide
  patRest i _ := by simp [State.reset]
  winRest i _ := by simp [State.reset]

theorem Update.keeps_windowSound {s u : State} (h : Update s u) (hs : WindowSound s) : WindowSound u := by
  cases h with
  | pattern bytes hpos hmax => exact windowSound_loadPattern s hpos hmax
  | push b => exact hs.swPush b
  | clear => exact hs.emptied rfl rfl rfl rfl rfl
  | _ => exact hs.of_eq rfl rfl rfl rfl rfl

theorem kept_windowSound : Kept WindowSound where
  respond _ _ _ hs := hs.of_eq rfl rfl rfl rfl rfl
  accept _ _ hs := hs.of_eq rfl rfl rfl rfl rfl
  tick _ hs := hs.of_eq rfl rfl rfl rfl rfl
  update _ _ hu hs := hu.keeps_windowSound hs
  setupEntry _ _ hs := hs.emptied rfl rfl rfl rfl rfl
  cancelSetup _ hs := hs.of_eq rfl rfl rfl rfl rfl
  byteStep _ hs := hs.byteStep
  reseedAndNext _ hs := hs.emptied (by simp) (by simp) (by simp) (by simp) (by simp)

/-- Settles O55: a push, a new pattern and an emptied window keep it. -/
theorem stepKeepsWindowSound : Obligations.StepKeepsWindowSound :=
  fun _ _ h hs => kept_windowSound.step (fun _ => windowSound_reset.of_eq rfl rfl rfl rfl rfl) h hs

end Sys2Proof.Machine
end

section
/-! PROOFS. The sequencer and the four flags. -/

namespace Sys2Proof.Machine

/-! The sequencer (10_state.md R29, 42_prbg_setup.md R168, R174). -/

/-- No command answered OK moves the sequencer, its counter or DISCARD. -/
theorem Update.sequencer_eq {s u : State} (h : Update s u) :
    u.phase = s.phase ∧ u.iterRem = s.iterRem ∧ u.discard = s.discard := by
  cases h with
  | push b => exact ⟨by simp, by simp, by simp⟩
  | _ => exact ⟨rfl, rfl, rfl⟩

/-- In an idle block the invariant speaks of the counter alone. -/
theorem sequencerSound_of_idle {s : State} (hidle : s.phase = .idle) (hcount : s.discard = false → s.iterRem = 0#32) :
    SequencerSound s where
  runningReady h := absurd hidle h
  runningOpen h := absurd hidle h
  drawingMatched h := by rw [hidle] at h; cases h
  idleCounter _ := hcount

/-- At a sampling point no match is asked for. -/
theorem sequencerSound_of_sampling {s : State} (hphase : s.phase = .sampling)
    (hready : s.seeded = true ∧ s.patValid = true ∧ s.iterRem ≠ 0#32) (hopen : s.discard = false ∧ s.response = none) :
    SequencerSound s where
  runningReady _ := hready
  runningOpen _ := hopen
  drawingMatched h := by rw [hphase] at h; cases h
  idleCounter h := by rw [hphase] at h; cases h

/-- The levels of the pins are not the sequencer's. -/
theorem SequencerSound.tick {s : State} (hs : SequencerSound s) : SequencerSound s.tick :=
  ⟨hs.runningReady, hs.runningOpen, hs.drawingMatched, hs.idleCounter⟩

theorem sequencerSound_resetBlock (s : State) : SequencerSound s.resetBlock :=
  sequencerSound_of_idle rfl fun _ => rfl

theorem sequencerSound_cancelSetup (s : State) : SequencerSound s.cancelSetup :=
  sequencerSound_of_idle rfl nofun

/-- A command of an idle block leaves it idle with its counter, or begins a setup, or cancels one at once. -/
theorem SequencerSound.exec {i : Instr} {s t : State} (hs : SequencerSound s) (hidle : s.phase = .idle)
    (h : exec i s = .next t) : SequencerSound t := by
  cases exec_answer h with
  | error _ c _ => exact sequencerSound_of_idle hidle (hs.idleCounter hidle)
  | done _ u v _ hu =>
    obtain ⟨hphase, hcount, hdiscard⟩ := hu.sequencer_eq
    refine sequencerSound_of_idle (hphase.trans hidle) fun hd => ?_
    exact hcount.trans (hs.idleCounter hidle (hdiscard ▸ hd))
  | status => exact sequencerSound_of_idle hidle (hs.idleCounter hidle)
  | reset => exact sequencerSound_of_idle rfl fun _ => rfl
  | setupBegins arg hd hseeded hpat harg _ =>
    exact sequencerSound_of_sampling rfl ⟨hseeded, hpat, harg⟩ ⟨hd, rfl⟩
  | setupCancelled arg => exact sequencerSound_cancelSetup _

/-- The draws come right after a match (42_prbg_setup.md R168). -/
theorem State.byteStep_cases (s : State) :
    (s.byteStep.phase = .drawing ∧ s.byteStep.swMatches = true) ∨ s.byteStep.phase = s.phase := by
  unfold State.byteStep
  split
  · next h => exact .inl ⟨rfl, h⟩
  · exact .inr s.drawAndPush_phase

theorem SequencerSound.byteStep {s : State} (hs : SequencerSound s) (hp : s.phase = .sampling) :
    SequencerSound s.byteStep := by
  have hrun : s.phase ≠ .idle := by rw [hp]; nofun
  have hready : s.byteStep.seeded = true ∧ s.byteStep.patValid = true ∧ s.byteStep.iterRem ≠ 0#32 := by
    simpa using hs.runningReady hrun
  have hopen : s.byteStep.discard = false ∧ s.byteStep.response = none := by simpa using hs.runningOpen hrun
  obtain ⟨hdraw, hmatch⟩ | hphase := s.byteStep_cases
  · exact ⟨fun _ => hready, fun _ => hopen, fun _ => hmatch, fun h => by rw [hdraw] at h; cases h⟩
  · exact sequencerSound_of_sampling (hphase.trans hp) hready hopen

/-- The counter at 0 ends the setup; else the next outer iteration begins with the counter it has left. -/
theorem State.nextIteration_cases (s : State) :
    (s.iterRem - 1#32 = 0#32 ∧ s.nextIteration.phase = .idle) ∨
    (s.iterRem - 1#32 ≠ 0#32 ∧ s.nextIteration.phase = .sampling ∧ s.nextIteration.response = s.response) := by
  unfold State.nextIteration
  split
  · next h => exact .inl ⟨h, rfl⟩
  · next h => exact .inr ⟨h, rfl, rfl⟩

theorem SequencerSound.reseedAndNext {s : State} (hs : SequencerSound s) (hp : s.phase = .drawing) :
    SequencerSound s.reseedAndNext := by
  have hrun : s.phase ≠ .idle := by rw [hp]; nofun
  obtain ⟨hseeded, hpat, -⟩ := hs.runningReady hrun
  obtain ⟨hd, hport⟩ := hs.runningOpen hrun
  obtain ⟨hzero, hidle⟩ | ⟨hne, hsampling, hresp⟩ := s.setupReseed.clearWindow.nextIteration_cases
  · exact sequencerSound_of_idle hidle fun _ => s.reseedAndNext_iterRem.trans hzero
  · refine sequencerSound_of_sampling hsampling ⟨by simpa using hseeded, by simpa using hpat, ?_⟩
      ⟨by simpa using hd, hresp.trans hport⟩
    rw [State.reseedAndNext_iterRem]
    exact hne

/-- Settles O57: transition by transition. -/
theorem stepKeepsSequencerSound : Obligations.StepKeepsSequencerSound := by
  intro s t h hs
  cases step_transition h with
  | hardReset => exact (sequencerSound_resetBlock s).tick
  | wait => exact hs.tick
  | illegal p rest e _ hidle =>
    have hillegal : SequencerSound ((s.accept rest).respond .eIllegal 0#32) :=
      sequencerSound_of_idle hidle (hs.idleCounter hidle)
    exact hillegal.tick
  | run p rest i u _ hidle _ _ hx =>
    have haccept : SequencerSound (s.accept rest) := sequencerSound_of_idle hidle (hs.idleCounter hidle)
    exact (haccept.exec hidle hx).tick
  | cancel => exact (sequencerSound_cancelSetup s).tick
  | byte _ hp => exact (hs.byteStep hp).tick
  | reseed _ hp => exact (hs.reseedAndNext hp).tick

/-! The flags (10_state.md R27, R31, R32, R33). -/

/-- Every flag that is 1 in the first state is 1 in the second. -/
structure FlagsKept (s t : State) : Prop where
  seeded : s.seeded = true → t.seeded = true
  patValid : s.patValid = true → t.patValid = true
  keyValid : s.keyValid = true → t.keyValid = true
  discard : s.discard = true → t.discard = true

theorem FlagsKept.refl (s : State) : FlagsKept s s := ⟨id, id, id, id⟩

theorem FlagsKept.trans {s t u : State} (hst : FlagsKept s t) (htu : FlagsKept t u) : FlagsKept s u :=
  ⟨htu.seeded ∘ hst.seeded, htu.patValid ∘ hst.patValid, htu.keyValid ∘ hst.keyValid, htu.discard ∘ hst.discard⟩

theorem FlagsKept.of_eq {s t : State} (hs : t.seeded = s.seeded) (hp : t.patValid = s.patValid)
    (hk : t.keyValid = s.keyValid) (hd : t.discard = s.discard) : FlagsKept s t :=
  ⟨hs.trans, hp.trans, hk.trans, hd.trans⟩

theorem Update.flagsKept {s u : State} (h : Update s u) : FlagsKept s u := by
  cases h with
  | reseed x => exact ⟨fun _ => rfl, id, id, id⟩
  | pattern bytes => exact ⟨id, fun _ => rfl, id, id⟩
  | key seed k => exact ⟨id, id, fun _ => rfl, id⟩
  | push b => exact .of_eq (by simp) (by simp) (by simp) (by simp)
  | _ => exact .of_eq rfl rfl rfl rfl

theorem kept_flags (a : State) : Kept (FlagsKept a) where
  respond _ _ _ hs := hs.trans (.of_eq rfl rfl rfl rfl)
  accept _ _ hs := hs.trans (.of_eq rfl rfl rfl rfl)
  tick _ hs := hs.trans (.of_eq rfl rfl rfl rfl)
  update _ _ hu hs := hs.trans hu.flagsKept
  setupEntry _ _ hs := hs.trans (.of_eq rfl rfl rfl rfl)
  cancelSetup _ hs := hs.trans ⟨id, id, id, fun _ => rfl⟩
  byteStep _ hs := hs.trans (.of_eq (by simp) (by simp) (by simp) (by simp))
  reseedAndNext _ hs := hs.trans (.of_eq (by simp) (by simp) (by simp) (by simp))

/-- Only a reset clears a flag. -/
theorem step_keeps_flags {s t : State} (h : step s = .next t) : FlagsKept s t ∨ s.takesReset :=
  ((kept_flags s).step_or_reset h (.refl s)).imp_right And.left

/-- A step after which a flag that was 1 is 0 takes a reset. -/
theorem step_clears_flag {s t : State} {flag : State → Bool} (hflag : FlagsKept s t → flag s = true → flag t = true)
    (h : step s = .next t) (hs : flag s = true) (ht : flag t = false) : s.takesReset := by
  obtain hk | hr := step_keeps_flags h
  · exact absurd (hflag hk hs) (by simp [ht])
  · exact hr

/-- A command whose flag is 0 answers the code of that check. -/
theorem State.command_check {s : State} {b : Bool} {c : Code} (e : Effect) (hd : s.discard = false) (hb : b = false) :
    s.command (if !b then .error c else e) = .next (s.answered c 0#32) := by
  rw [hb]
  exact State.command_error hd c

/-- PRBG.SETUP without a seed, a pattern or a count answers E_CONFIG (42_prbg_setup.md R168). -/
theorem exec_prbgSetup_eConfig {arg : BitVec 32} {s : State} (hd : s.discard = false)
    (h : s.seeded = false ∨ s.patValid = false ∨ arg = 0#32) :
    exec (.prbgSetup arg) s = .next (s.answered .eConfig 0#32) := by
  have hcheck : (!s.seeded || !s.patValid || decide (arg = 0#32)) = true := by
    obtain h | h | h := h <;> simp [h]
  change execPrbgSetup arg s = _
  rw [execPrbgSetup, if_neg (by simp [hd]), if_pos hcheck]
  rfl

/-- PRBG.SETUP that passes its checks while `cancel_req` is 1 is cancelled in the accepting transition (log entry 4). -/
theorem exec_prbgSetup_cancelled {arg : BitVec 32} {s : State} (hd : s.discard = false) (hseeded : s.seeded = true)
    (hpat : s.patValid = true) (harg : arg ≠ 0#32) (hc : s.pins.cancelReq = true) :
    exec (.prbgSetup arg) s = .next (s.setupEntry arg).cancelSetup := by
  change execPrbgSetup arg s = _
  simp [execPrbgSetup, hd, hseeded, hpat, harg, hc]

theorem exec_xsReseed_ok {off len : Off} {s t : State} {v : BitVec 32} (h : exec (.xsReseed off len) s = .next t)
    (hv : t.response = some { code := Code.bits .ok, val := v }) : t.seeded = true := by
  obtain ⟨u, w, hu, rfl⟩ := State.command_answered_ok (Q := fun u => u.seeded = true)
    (.ite (fun _ => .error _ (by decide)) fun _ => .range fun _ => .ok _ _ rfl) h hv
  exact hu

theorem exec_swLoadpat_ok {off len : Off} {s t : State} {v : BitVec 32} (h : exec (.swLoadpat off len) s = .next t)
    (hv : t.response = some { code := Code.bits .ok, val := v }) : t.patValid = true := by
  obtain ⟨u, w, hu, rfl⟩ := State.command_answered_ok (Q := fun u => u.patValid = true)
    (.ite (fun _ => .error _ (by decide)) fun _ => .range fun _ => .ok _ _ rfl) h hv
  exact hu

/-- The effect of DRSA.DERIVE: an error code, or a state with KEYVALID set (45_drsa.md R252). -/
theorem derive_ensures_keyValid (s : State) (off len : Off) :
    Ensures (fun u => u.keyValid = true)
      (if !rangeFits off len then .error .eRange
      else
        match deriveKey (s.readRange off len) with
        | .error c => .error c
        | .ok k => .ok (s.commitKey k, 0#32)) := by
  refine .range fun _ => ?_
  cases hk : deriveKey (s.readRange off len) with
  | error c => exact .error c (deriveKey_error_ne_ok hk)
  | ok k => exact .ok _ _ rfl

/-- Settles O14: the flag is kept by everything but a reset, and the stream commands check it. -/
theorem seededFlag : Obligations.SeededFlag := by
  refine ⟨rfl, fun _ _ _ _ _ => exec_xsReseed_ok, fun s t h hs ht => ?_, fun s off len arg hd hs => ⟨?_, ?_, ?_⟩⟩
  · exact step_clears_flag FlagsKept.seeded h hs ht
  · exact State.command_check _ hd hs
  · exact State.command_check _ hd hs
  · exact exec_prbgSetup_eConfig hd (.inl hs)

/-- Settles O15: the flag is kept by everything but a reset, and the window commands check it. -/
theorem patvalidFlag : Obligations.PatvalidFlag := by
  refine ⟨rfl, fun _ _ _ _ _ => exec_swLoadpat_ok, fun s t h hs ht => ?_, fun s hw hs => ?_,
    fun s k arg hd hs => ⟨?_, ?_, ?_, ?_⟩⟩
  · exact step_clears_flag FlagsKept.patValid h hs ht
  · have hlen : ¬0 < s.patLen.val := by simpa [hs] using hw.validIffLength
    exact Fin.ext (Nat.eq_zero_of_not_pos hlen)
  · exact State.command_check _ hd hs
  · exact State.command_check _ hd hs
  · exact State.command_check _ hd hs
  · exact exec_prbgSetup_eConfig hd (.inr (.inl hs))

/-- Settles O16: the flag is kept by everything but a reset, and set with the key registers together. -/
theorem keyvalidFlag : Obligations.KeyvalidFlag := by
  refine ⟨rfl, fun off len s t v h hv => ?_, fun s t h hs ht => ?_, fun off len s t c v h hv hc => ?_,
    fun gd sel s hd hs => ?_⟩
  · obtain ⟨u, w, hu, rfl⟩ := State.command_answered_ok (derive_ensures_keyValid s off len) h hv
    exact hu
  · exact step_clears_flag FlagsKept.keyValid h hs ht
  · obtain rfl := State.command_answered_error (derive_ensures_keyValid s off len) h hv hc
    exact ⟨rfl, rfl, rfl, rfl, rfl, rfl⟩
  · exact State.command_check _ hd hs

/-- In the must-discard state a command other than SYS.RESET and SYS.STATUS answers E_DISCARD (60_exceptions.md R295). -/
theorem exec_of_discard {i : Instr} {s : State} (hd : s.discard = true) (hreset : i ≠ .sysReset)
    (hstatus : i ≠ .sysStatus) : exec i s = .next (s.answered .eDiscard 0#32) := by
  cases i with
  | sysStatus => exact absurd rfl hstatus
  | sysReset => exact absurd rfl hreset
  | prbgSetup arg =>
    change execPrbgSetup arg s = _
    rw [execPrbgSetup, if_pos hd]
    rfl
  | bnGcd | prSieve | prPptest => exact State.command_discard hd (.ok (_, _))
  | _ => exact State.command_discard hd _

/-- A command sets DISCARD exactly where it is a PRBG.SETUP that passes its checks while `cancel_req` is 1. -/
theorem exec_sets_discard {i : Instr} {s t : State} (h : exec i s = .next t) (hd : s.discard = false) :
    t.discard = true ↔
      s.pins.cancelReq = true ∧ s.seeded = true ∧ s.patValid = true ∧ ∃ arg, i = .prbgSetup arg ∧ arg ≠ 0#32 := by
  constructor
  · intro ht
    cases exec_answer h with
    | error | status | setupBegins => simp [hd] at ht
    | done _ u v _ hu => simp [hu.sequencer_eq, hd] at ht
    | reset => cases ht
    | setupCancelled arg _ hseeded hpat harg hc => exact ⟨hc, hseeded, hpat, arg, rfl, harg⟩
  · rintro ⟨hc, hseeded, hpat, arg, rfl, harg⟩
    cases (exec_prbgSetup_cancelled hd hseeded hpat harg hc).symm.trans h
    rfl

/-- The two places where a setup is cancelled (42_prbg_setup.md R172, 60_exceptions.md R302). -/
theorem step_sets_discard {s t : State} (h : step s = .next t) (hd : s.discard = false) :
    t.discard = true ↔ s.pins.hardReset = false ∧ s.pins.cancelReq = true ∧
      (s.phase = .sampling ∨ s.phase = .idle ∧ s.seeded = true ∧ s.patValid = true ∧
        ∃ p rest arg, s.packets = p :: rest ∧ decode p = .ok (.prbgSetup arg) ∧ arg ≠ 0#32) := by
  cases step_transition h with
  | hardReset hr => simp [hr, State.reset]
  | wait hr hidle hp => simp [hd, hidle, hp]
  | illegal p rest e hr hidle hp hdec => simp [hd, hidle, hp, hdec]
  | run p rest i u hr hidle hp hdec hx =>
    rw [State.tick_discard, exec_sets_discard hx hd]
    simp [hr, hidle, hp, hdec]
  | cancel hr hp hc => simp [hr, hp, hc]
  | byte hr hp hc => simp [hd, hc]
  | reseed hr hp => simp [hd, hp]

/-- Settles O17: the two places of a cancellation set it, only a reset clears it. -/
theorem discardFlag : Obligations.DiscardFlag := by
  refine ⟨rfl, fun s t => step_sets_discard, fun s t h hs ht => ?_, fun i s => exec_of_discard⟩
  exact step_clears_flag FlagsKept.discard h hs ht

end Sys2Proof.Machine
end

section
/-! PROOFS. Noninterference: nothing depends on KPHI. -/

namespace Sys2Proof.Machine

/-! KPHI is never observed (10_state.md R40, 45_drsa.md R256). -/

/-- The state with another totient in KPHI. -/
def State.withPhi (s : State) (k : Nat) : State := { s with kphi := k }

/-- Two results that are one next state but for KPHI. -/
inductive SameButPhi : Result → Result → Prop where
  | next (t : State) (k : Nat) : SameButPhi (.next t) (.next (t.withPhi k))

theorem SameButPhi.exists_next {r r' : Result} (h : SameButPhi r r') :
    ∃ t k, r = .next t ∧ r' = .next (State.withPhi t k) := by
  cases h with
  | next t k => exact ⟨t, k, rfl, rfl⟩

/-- Two effects that fail with one code, or agree but for KPHI. -/
inductive PhiBlind : Effect → Effect → Prop where
  | error (c : Code) : PhiBlind (.error c) (.error c)
  | ok (u : State) (v : BitVec 32) (k : Nat) : PhiBlind (.ok (u, v)) (.ok (u.withPhi k, v))

theorem PhiBlind.ite {c : Prop} [Decidable c] {a b a' b' : Effect} (ha : PhiBlind a a') (hb : PhiBlind b b') :
    PhiBlind (if c then a else b) (if c then a' else b') := by
  split
  · exact ha
  · exact hb

theorem SameButPhi.ite {c : Prop} [Decidable c] {a b a' b' : Result} (ha : SameButPhi a a') (hb : SameButPhi b b') :
    SameButPhi (if c then a else b) (if c then a' else b') := by
  split
  · exact ha
  · exact hb

/-- The common checks of a command do not look at KPHI. -/
theorem PhiBlind.command {s : State} {k : Nat} {e e' : Effect} (h : PhiBlind e e') :
    SameButPhi (s.command e) ((s.withPhi k).command e') := by
  unfold State.command
  refine .ite (.next _ k) ?_
  cases h with
  | error c => exact .next _ k
  | ok u v k' => exact .next _ k'

theorem State.ite_withPhi (c : Prop) [Decidable c] (a b : State) (k : Nat) :
    (if c then a else b).withPhi k = if c then a.withPhi k else b.withPhi k :=
  apply_ite (fun u => State.withPhi u k) c a b

theorem State.swPush_withPhi (s : State) (b : Byte) (k : Nat) : (s.withPhi k).swPush b = (s.swPush b).withPhi k := by
  unfold State.swPush
  rw [State.ite_withPhi]
  rfl

theorem State.drawAndPush_withPhi (s : State) (k : Nat) : (s.withPhi k).drawAndPush = s.drawAndPush.withPhi k :=
  (s.setXs (xsStep s.xs)).swPush_withPhi (xsOut (xsStep s.xs)) k

theorem State.byteStep_withPhi (s : State) (k : Nat) : (s.withPhi k).byteStep = s.byteStep.withPhi k := by
  unfold State.byteStep
  rw [State.drawAndPush_withPhi, State.ite_withPhi]
  rfl

theorem State.reseedAndNext_withPhi (s : State) (k : Nat) :
    (s.withPhi k).reseedAndNext = s.reseedAndNext.withPhi k := by
  unfold State.reseedAndNext State.nextIteration
  rw [State.ite_withPhi]
  rfl

theorem State.keyValue_withPhi (s : State) (k : Nat) (sel : KeySel) : (s.withPhi k).keyValue sel = s.keyValue sel := by
  cases sel <;> rfl

/-- A derived key takes the place of whatever KPHI held (45_drsa.md R252). -/
theorem State.commitKey_withPhi (s : State) (k : Nat) (key : KeyMaterial) :
    (s.withPhi k).commitKey key = (s.commitKey key).withPhi key.phi := rfl

/-- No command looks at KPHI. -/
theorem exec_withPhi (i : Instr) (s : State) (k : Nat) : SameButPhi (exec i s) (exec i (s.withPhi k)) := by
  cases i with
  | sysStatus => exact .next _ k
  | sysReset => exact .next _ State.reset.kphi
  | prbgSetup arg => exact .ite (.next _ k) (.ite (.next _ k) (.ite (.next _ k) (.next _ k)))
  | bufWr off byte => exact PhiBlind.command (.ite (.ok _ _ k) (.error _))
  | bufRd off => exact PhiBlind.command (.ite (.ok _ _ k) (.error _))
  | xsReseed off len => exact PhiBlind.command (.ite (.error _) (.ite (.error _) (.ok _ _ k)))
  | xsNext => exact PhiBlind.command (.ite (.error _) (.ok _ _ k))
  | xsFill off len => exact PhiBlind.command (.ite (.error _) (.ite (.error _) (.ok _ _ k)))
  | swLoadpat off len => exact PhiBlind.command (.ite (.error _) (.ite (.error _) (.ok _ _ k)))
  | swPush b =>
    refine PhiBlind.command (.ite (.error _) ?_)
    rw [State.swPush_withPhi]
    exact .ok _ _ k
  | swMatch => exact PhiBlind.command (.ite (.error _) (.ok _ _ k))
  | swClear => exact PhiBlind.command (.ite (.error _) (.ok _ _ k))
  | bnLoad gd off len => exact PhiBlind.command (.ite (.error _) (.ite (.error _) (.ok _ _ k)))
  | bnStore gs off len => exact PhiBlind.command (.ite (.error _) (.ite (.error _) (.ok _ _ k)))
  | bnGcd gd gs1 gs2 => exact PhiBlind.command (.ok _ _ k)
  | bnModexp gd gs1 gs2 gs3 => exact PhiBlind.command (.ite (.error _) (.ok _ _ k))
  | bnModinv gd gs1 gs2 =>
    refine PhiBlind.command (.ite (.error _) ?_)
    change PhiBlind _ (match modinv (s.reg gs1) (s.reg gs2) with | none => _ | some x => _)
    cases modinv (s.reg gs1) (s.reg gs2) with
    | none => exact .error _
    | some x => exact .ok _ _ k
  | prSieve gs1 j => exact PhiBlind.command (.ok _ _ k)
  | prPptest gs1 => exact PhiBlind.command (.ok _ _ k)
  | prNextpp gd gs1 =>
    refine PhiBlind.command ?_
    change PhiBlind _ (match nextpp (s.reg gs1) with | none => _ | some x => _)
    cases nextpp (s.reg gs1) with
    | none => exact .error _
    | some x => exact .ok _ _ k
  | prSearch gd gs1 =>
    refine PhiBlind.command ?_
    change PhiBlind _ (match search (s.reg gs1) with | none => _ | some x => _)
    cases search (s.reg gs1) with
    | none => exact .error _
    | some x => exact .ok _ _ k
  | drsaDerive off len =>
    refine PhiBlind.command (.ite (.error _) ?_)
    change PhiBlind _ (match deriveKey (s.readRange off len) with | .error c => _ | .ok x => _)
    cases deriveKey (s.readRange off len) with
    | error c => exact .error c
    | ok key => exact .ok (s.commitKey key) _ key.phi
  | keyGet gd sel =>
    refine PhiBlind.command (.ite (.error _) ?_)
    rw [State.keyValue_withPhi]
    exact .ok _ _ k

/-- No packet makes the block look at KPHI. -/
theorem runPacket_withPhi (p : Packet) (s : State) (k : Nat) :
    SameButPhi (runPacket p s) (runPacket p (s.withPhi k)) := by
  unfold runPacket
  cases decode p with
  | error e => exact .next _ k
  | ok i => exact exec_withPhi i s k

theorem State.idleStep_nil {s : State} (hp : s.packets = []) : s.idleStep = .next s.tick := by
  simp [State.idleStep, hp]

theorem State.idleStep_cons {s t : State} {p : Packet} {rest : List Packet} (hp : s.packets = p :: rest)
    (h : runPacket p (s.accept rest) = .next t) : s.idleStep = .next t.tick := by
  simp [State.idleStep, hp, h]

theorem State.idleStep_withPhi (s : State) (k : Nat) : SameButPhi s.idleStep (s.withPhi k).idleStep := by
  cases hp : s.packets with
  | nil =>
    rw [State.idleStep_nil hp, State.idleStep_nil (s := s.withPhi k) hp]
    exact .next _ k
  | cons p rest =>
    obtain ⟨t, k', ht, ht'⟩ := (runPacket_withPhi p (s.accept rest) k).exists_next
    rw [State.idleStep_cons hp ht, State.idleStep_cons (s := s.withPhi k) hp ht']
    exact .next t.tick k'

theorem State.sampleAndStep_withPhi (s : State) (k : Nat) :
    (s.withPhi k).sampleAndStep = s.sampleAndStep.withPhi k := by
  unfold State.sampleAndStep
  rw [State.byteStep_withPhi, State.ite_withPhi]
  rfl

theorem step_withPhi (s : State) (k : Nat) : SameButPhi (step s) (step (s.withPhi k)) := by
  unfold step State.blockStep
  refine .ite (.next _ State.reset.kphi) ?_
  change SameButPhi _ (match s.phase with | .idle => _ | .sampling => _ | .drawing => _)
  cases s.phase with
  | idle => exact s.idleStep_withPhi k
  | sampling =>
    rw [State.sampleAndStep_withPhi]
    exact .next _ k
  | drawing =>
    rw [State.reseedAndNext_withPhi]
    exact .next _ k

/-- Settles O59: every step of the changed state is the same step but for KPHI. -/
theorem totientIsNeverObserved : Obligations.TotientIsNeverObserved := by
  intro s t k h
  obtain ⟨u, k', hu, hstep⟩ := (step_withPhi s k).exists_next
  cases hu.symm.trans h
  exact ⟨k', hstep⟩

end Sys2Proof.Machine
end

section
/-! PROOFS. The table of small primes and the reset state. -/

namespace Sys2Proof.Machine

/-! The table of small primes (10_state.md R36). -/

/-- The primes below 32, which is above the square root of every number below 1000. -/
def trialDivisors : List Nat := [2, 3, 5, 7, 11, 13, 17, 19, 23, 29, 31]

/-- Trial division: no divisor of the list divides the number unless it is the number. -/
def trialPrime (n : Nat) : Bool := decide (2 ≤ n) && trialDivisors.all fun p => n % p != 0 || p == n

theorem trialPrime_iff_forall (n : Nat) :
    trialPrime n = true ↔ 2 ≤ n ∧ ∀ p ∈ trialDivisors, p ∣ n → p = n := by
  simp only [trialPrime, Bool.and_eq_true, decide_eq_true_eq, List.all_eq_true, Bool.or_eq_true, bne_iff_ne, beq_iff_eq,
    Nat.dvd_iff_mod_eq_zero, ne_eq, imp_iff_not_or]

theorem mem_trialDivisors_iff (p : Nat) : p ∈ trialDivisors ↔ p < 32 ∧ p.Prime := by
  constructor
  · intro h
    simp only [trialDivisors, List.mem_cons, List.not_mem_nil, or_false] at h
    rcases h with rfl | rfl | rfl | rfl | rfl | rfl | rfl | rfl | rfl | rfl | rfl <;> norm_num
  · rintro ⟨hlt, hp⟩
    revert hp
    interval_cases p <;> norm_num [trialDivisors]

/-- Below 32 * 32 trial division by the primes below 32 decides primality: a composite has a prime factor whose square is
not above it. -/
theorem trialPrime_iff_prime {n : Nat} (hn : n < 1024) : trialPrime n = true ↔ n.Prime := by
  rw [trialPrime_iff_forall]
  constructor
  · rintro ⟨h2, hdiv⟩
    by_contra hcomposite
    have hprime : n.minFac.Prime := Nat.minFac_prime (by omega)
    have hsq : n.minFac ^ 2 ≤ n := Nat.minFac_sq_le_self (by omega) hcomposite
    have hlt : n.minFac < 32 := by nlinarith
    have heq : n.minFac = n := hdiv _ ((mem_trialDivisors_iff _).mpr ⟨hlt, hprime⟩) n.minFac_dvd
    exact hcomposite (heq ▸ hprime)
  · intro hprime
    refine ⟨hprime.two_le, fun p hp hdvd => ?_⟩
    exact (Nat.prime_dvd_prime_iff_eq ((mem_trialDivisors_iff p).mp hp).2 hprime).mp hdvd

/-- Settles O40: the table is what trial division leaves of the numbers below 1000. -/
theorem smallPrimeTableIsComplete : Obligations.SmallPrimeTableIsComplete := by
  refine ⟨?_, by decide +kernel⟩
  have htable : smallPrimes = (List.range 1000).filter trialPrime := by decide +kernel
  rw [htable]
  refine List.filter_congr fun n hn => ?_
  have hlt : n < 1024 := Nat.lt_trans (List.mem_range.mp hn) (by decide)
  rw [Bool.eq_iff_iff, trialPrime_iff_prime hlt, decide_eq_true_iff]

/-! The reset state (10_state.md R44). -/

/-- Settles O5: field by field. -/
theorem resetStateValues : Obligations.ResetStateValues := by
  refine ⟨⟨rfl, rfl, rfl, rfl⟩, ⟨rfl, rfl, rfl, rfl⟩, fun i => ?_, fun r => ?_, ⟨rfl, rfl, rfl, rfl, rfl⟩, fun _ => rfl,
    by decide, rfl, rfl⟩
  · simp [State.reset]
  · simp [State.reg, State.reset]

/-- Without a key nothing is asked of the key registers. -/
theorem keySound_of_no_key {s : State} (h : s.keyValid = false) : KeySound s := by
  constructor <;> (intro hk; rw [h] at hk; cases hk)

/-- Without a response nothing is asked of the port. -/
theorem responseSound_of_none {s : State} (h : s.response = none) : ResponseSound s := by
  intro r hr
  rw [h] at hr
  cases hr

/-- Settles O52: each invariant is read off the reset values. -/
theorem resetMeetsTheInvariants : Obligations.ResetMeetsTheInvariants :=
  ⟨reset_buf_wf, registersStorable_reset, windowSound_reset, keySound_of_no_key rfl,
    sequencerSound_of_idle rfl fun _ => rfl, responseSound_of_none rfl⟩

end Sys2Proof.Machine
end

section
/-! PROOFS. The decoder beside the encoder and the opcode map, and the totality of the machine. -/

namespace Sys2Proof.Machine

/-! A command's own packet decodes to it. -/

/-- An unused register field that is 0 is accepted (30_encoding.md R90). -/
@[simp] theorem noReg_zeroBits (r : Decoded) : noReg 0#4 r = r := noReg_zero r

/-- Outside PRBG.SETUP, with `arg` 0, the decoder is the opcode map on `word[23:0]` (30_encoding.md R87). -/
theorem decode_packetOf {op : BitVec 8} (hop : op ≠ 0x30#8) (w : BitVec 24) :
    decode (packetOf 0#32 op w) = decodeWord op w := by
  simp only [decode, pktOp_packetOf, pktRest_packetOf, pktArg_packetOf, if_neg hop]
  cases decodeWord op w with
  | error e => rfl
  | ok i => exact if_pos rfl

/-- Settles O1: format by format, each field reads back as the encoder wrote it. -/
theorem decodeEncodeRoundTrip : Obligations.DecodeEncodeRoundTrip := by
  intro i hwf
  cases i with
  | sysStatus | sysReset | xsNext | swMatch | swClear => rfl
  | prbgSetup => simp [encode, decode, formatZ, onlyZero]
  | bufWr | bufRd => simp [encode, decode_packetOf, decodeWord, formatO_bitsO, onlyZero]
  | xsReseed | xsFill | swLoadpat | drsaDerive | bnLoad | bnStore =>
    simp [encode, decode_packetOf, decodeWord, formatB_bitsB, regField_regBits]
  | bnGcd | bnModexp | bnModinv | prPptest | prNextpp | prSearch =>
    simp [encode, decode_packetOf, decodeWord, formatR_bitsR, regField_regBits]
  | swPush | keyGet => simp [encode, decode_packetOf, decodeWord, formatK_bitsK, regField_regBits, selField_selBits]
  | prSieve a k =>
    have hk : k.toNat ≤ 168 := of_decide_eq_true hwf
    simp [encode, decode_packetOf, decodeWord, formatK_bitsK, regField_regBits, sieveIndex, hk]

/-! The packets the spec writes out. -/

/-- Settles O4: each packet is what the encoder builds for its command (30_encoding.md R102), so O1 decodes it. -/
theorem workedPacketsDecode : Obligations.WorkedPacketsDecode :=
  ⟨decodeEncodeRoundTrip (.prbgSetup 2#32) rfl, decodeEncodeRoundTrip (.bnModexp 3 0 1 2) rfl,
    decodeEncodeRoundTrip (.bnLoad 1 4#10 2#10) rfl, decodeEncodeRoundTrip (.bufWr 17#10 0xC5#8) rfl,
    decodeEncodeRoundTrip (.bufRd 17#10) rfl⟩

/-! The machine never stops. -/

/-- An idle block answers a next state: it waits, rejects the packet or runs the command. -/
theorem State.idleStep_next (s : State) : ∃ t, s.idleStep = .next t := by
  obtain ⟨-, hwait⟩ | ⟨p, rest, hp, ⟨e, -, hreject⟩ | ⟨i, hd, -⟩⟩ := s.idleStep_cases
  · exact ⟨_, hwait⟩
  · exact ⟨_, hreject⟩
  · obtain ⟨t, ht⟩ := exec_next i (s.accept rest)
    have hrun : runPacket p (s.accept rest) = .next t := by simpa only [runPacket, hd] using ht
    exact ⟨_, State.idleStep_cons hp hrun⟩

theorem step_next (s : State) : ∃ t, step s = .next t := by
  obtain ⟨-, he⟩ | ⟨-, -, he⟩ | ⟨-, -, -, he⟩ | ⟨-, -, -, he⟩ | ⟨-, -, he⟩ := step_cases s
  · exact ⟨_, he⟩
  · exact he ▸ s.idleStep_next
  · exact ⟨_, he⟩
  · exact ⟨_, he⟩
  · exact ⟨_, he⟩

/-- Settles O9: by the cases of the command and of the step. -/
theorem machineNeverStops : Obligations.MachineNeverStops := ⟨exec_next, step_next⟩

/-! Masks over fields put side by side. -/

theorem append_eq_append_iff {m n : Nat} (x x' : BitVec m) (y y' : BitVec n) : x ++ y = x' ++ y' ↔ x = x' ∧ y = y' := by
  constructor
  · intro h
    have hx := congrArg (BitVec.extractLsb' n m) h
    have hy := congrArg (BitVec.extractLsb' 0 n) h
    simp only [BitVec.extractLsb'_append_eq_left, BitVec.extractLsb'_append_eq_right] at hx hy
    exact ⟨hx, hy⟩
  · rintro ⟨rfl, rfl⟩
    rfl

theorem append_and_eq_zero_iff {m n : Nat} (x a : BitVec m) (y b : BitVec n) :
    (x ++ y) &&& (a ++ b) = 0#(m + n) ↔ x &&& a = 0#m ∧ y &&& b = 0#n := by
  rw [BitVec.and_append, ← BitVec.zero_append_zero, append_eq_append_iff]

/-- Bits that a mask covers are 0 in a word that is 0 under the mask. -/
theorem extract_eq_zero_of_and_eq_zero {w start len : Nat} {x m : BitVec w} (h : x &&& m = 0#w)
    (hm : m.extractLsb' start len = BitVec.allOnes len) : x.extractLsb' start len = 0#len := by
  have hx := congrArg (BitVec.extractLsb' start len) h
  simpa [BitVec.extractLsb'_and, hm] using hx

/-- The mask over `word[23:0]` of a command of format R, from those of its register fields (30_encoding.md R90, R96). -/
def maskR (rd rs1 rs2 rs3 : BitVec 4) : BitVec 24 := rd ++ rs1 ++ rs2 ++ rs3 ++ 0xFF#8

/-- The mask of a command of format B (30_encoding.md R91, R96): off and len are free. -/
def maskB (r : BitVec 4) : BitVec 24 := r ++ 0#10 ++ 0#10

/-- The mask of a command of format K (30_encoding.md R92, R96). -/
def maskK (rd rs1 : BitVec 4) (k : Byte) : BitVec 24 := rd ++ rs1 ++ 0xFF#8 ++ k

/-- The mask of a command of format O (30_encoding.md R94, R96): off is free. -/
def maskO (byte : Byte) : BitVec 24 := 0xF#4 ++ 0#10 ++ 0x3#2 ++ byte

theorem bitsR_and_maskR_iff (rd rs1 rs2 rs3 m1 m2 m3 m4 : BitVec 4) :
    bitsR rd rs1 rs2 rs3 &&& maskR m1 m2 m3 m4 = 0#24 ↔
      rd &&& m1 = 0#4 ∧ rs1 &&& m2 = 0#4 ∧ rs2 &&& m3 = 0#4 ∧ rs3 &&& m4 = 0#4 := by
  unfold bitsR maskR
  rw [append_and_eq_zero_iff, append_and_eq_zero_iff, append_and_eq_zero_iff, append_and_eq_zero_iff]
  simp [and_assoc]

theorem bitsB_and_maskB_iff (r m : BitVec 4) (off len : Off) :
    bitsB r off len &&& maskB m = 0#24 ↔ r &&& m = 0#4 := by
  unfold bitsB maskB
  rw [append_and_eq_zero_iff, append_and_eq_zero_iff]
  simp

theorem bitsK_and_maskK_iff (rd rs1 m1 m2 : BitVec 4) (k m : Byte) :
    bitsK rd rs1 k &&& maskK m1 m2 m = 0#24 ↔ rd &&& m1 = 0#4 ∧ rs1 &&& m2 = 0#4 ∧ k &&& m = 0#8 := by
  unfold bitsK maskK
  rw [append_and_eq_zero_iff, append_and_eq_zero_iff, append_and_eq_zero_iff]
  simp [and_assoc]

theorem bitsO_and_maskO_iff (off : Off) (byte m : Byte) :
    bitsO off byte &&& maskO m = 0#24 ↔ byte &&& m = 0#8 := by
  unfold bitsO maskO
  rw [append_and_eq_zero_iff, append_and_eq_zero_iff, append_and_eq_zero_iff]
  simp

theorem bitsK_lowByte (rd rs1 : BitVec 4) (k : Byte) : (bitsK rd rs1 k).extractLsb' 0 8 = k :=
  BitVec.extractLsb'_append_eq_right

/-! What each format and each field accepts: the word is built from fields, or it is rejected. -/

theorem formatR_cases (w : BitVec 24) (k : BitVec 4 → BitVec 4 → BitVec 4 → BitVec 4 → Decoded) :
    (∃ rd rs1 rs2 rs3, w = bitsR rd rs1 rs2 rs3) ∨
      w.extractLsb' 0 8 ≠ 0#8 ∧ formatR w k = .error .zeroBitSet := by
  by_cases h : w.extractLsb' 0 8 = 0#8
  · refine .inl ⟨w.extractLsb' 20 4, w.extractLsb' 16 4, w.extractLsb' 12 4, w.extractLsb' 8 4, ?_⟩
    rw [bitsR, ← h]
    iterate 4 rw [BitVec.extractLsb'_append_extractLsb'_eq_extractLsb' (by rfl)]
    exact BitVec.extractLsb'_eq_self.symm
  · exact .inr ⟨h, if_neg h⟩

theorem exists_bitsB (w : BitVec 24) : ∃ r off len, w = bitsB r off len := by
  refine ⟨w.extractLsb' 20 4, w.extractLsb' 10 10, w.extractLsb' 0 10, ?_⟩
  rw [bitsB]
  iterate 2 rw [BitVec.extractLsb'_append_extractLsb'_eq_extractLsb' (by rfl)]
  exact BitVec.extractLsb'_eq_self.symm

theorem formatK_cases (w : BitVec 24) (f : BitVec 4 → BitVec 4 → Byte → Decoded) :
    (∃ rd rs1 k, w = bitsK rd rs1 k) ∨ w.extractLsb' 8 8 ≠ 0#8 ∧ formatK w f = .error .zeroBitSet := by
  by_cases h : w.extractLsb' 8 8 = 0#8
  · refine .inl ⟨w.extractLsb' 20 4, w.extractLsb' 16 4, w.extractLsb' 0 8, ?_⟩
    rw [bitsK, ← h]
    iterate 3 rw [BitVec.extractLsb'_append_extractLsb'_eq_extractLsb' (by rfl)]
    exact BitVec.extractLsb'_eq_self.symm
  · exact .inr ⟨h, if_neg h⟩

theorem formatO_cases (w : BitVec 24) (f : Off → Byte → Decoded) :
    (∃ off byte, w = bitsO off byte) ∨
      (w.extractLsb' 20 4 ≠ 0#4 ∨ w.extractLsb' 8 2 ≠ 0#2) ∧ formatO w f = .error .zeroBitSet := by
  by_cases h : w.extractLsb' 20 4 = 0#4
  · by_cases h' : w.extractLsb' 8 2 = 0#2
    · refine .inl ⟨w.extractLsb' 10 10, w.extractLsb' 0 8, ?_⟩
      rw [bitsO, ← h, ← h']
      iterate 3 rw [BitVec.extractLsb'_append_extractLsb'_eq_extractLsb' (by rfl)]
      exact BitVec.extractLsb'_eq_self.symm
    · exact .inr ⟨.inr h', (if_pos h).trans (if_neg h')⟩
  · exact .inr ⟨.inl h, if_neg h⟩

/-- The top bit of a register field tells whether it names a register (30_encoding.md R93). -/
theorem and_topBit_eq_zero_iff (f : BitVec 4) : f &&& 0x8#4 = 0#4 ↔ f.toNat < 8 := by
  revert f
  decide

theorem regField_cases (f : BitVec 4) (k : Reg → Decoded) :
    (f &&& 0x8#4 = 0#4 ∧ ∃ r, f = regBits r) ∨ f &&& 0x8#4 ≠ 0#4 ∧ regField f k = .error .registerOutOfRange := by
  rw [ne_eq, and_topBit_eq_zero_iff]
  by_cases h : f.toNat < 8
  · exact .inl ⟨h, ⟨f.toNat, h⟩, (BitVec.ofNat_toNat 4 f).symm.trans rfl⟩
  · exact .inr ⟨h, dif_neg h⟩

/-- The selectors of the extra condition of KEY.GET's row (30_encoding.md R96). -/
def isSelector (k : Byte) : Bool := [0x00#8, 0x01#8, 0x80#8, 0x81#8, 0x82#8].contains k

/-- A selector is 0 under the mask of KEY.GET's row. -/
theorem selBits_and_mask (sel : KeySel) : selBits sel &&& 0x7C#8 = 0#8 := by cases sel <;> rfl

theorem isSelector_selBits (sel : KeySel) : isSelector (selBits sel) = true := by cases sel <;> rfl

theorem selField_cases (k : Byte) (f : KeySel → Decoded) :
    (∃ sel, k = selBits sel) ∨ isSelector k = false ∧ selField k f = .error .unknownSelector := by
  by_cases h : ∃ sel, k = selBits sel
  · exact .inl h
  · have hpubN : k ≠ 0x00#8 := fun e => h ⟨.pubN, e⟩
    have hpubE : k ≠ 0x01#8 := fun e => h ⟨.pubE, e⟩
    have hprivD : k ≠ 0x80#8 := fun e => h ⟨.privD, e⟩
    have hprivP : k ≠ 0x81#8 := fun e => h ⟨.privP, e⟩
    have hprivQ : k ≠ 0x82#8 := fun e => h ⟨.privQ, e⟩
    exact .inr ⟨by simp [isSelector, *], by simp [selField, *]⟩

/-! One branch of the decoder beside one row of the opcode map. -/

/-- A branch of the decoder reads the commands of one row out of `word[23:0]`: each command it answers is well formed,
has the row's mnemonic and is encoded by this word, and it answers one exactly where the condition holds. -/
structure Reads (name : String) (d : Decoded) (legal : Prop) (op : BitVec 8) (w : BitVec 24) : Prop where
  wellFormed : ∀ i, d = .ok i → i.wellFormed = true
  encoded : ∀ i, d = .ok i → encode i = packetOf 0#32 op w
  named : ∀ i, d = .ok i → mnemonic i = name
  answers : (∃ i, d = .ok i) ↔ legal

section
variable {name : String} {op : BitVec 8} {w : BitVec 24} {legal legal' : Prop} {d : Decoded}

/-- A branch ends in a command. Its word is written out from the fields, of which the equations in the context tell what
they hold. -/
theorem Reads.ok {i : Instr} (hwf : i.wellFormed = true := by rfl)
    (he : encode i = packetOf 0#32 op w := by subst_vars; rfl) (hn : mnemonic i = name := by rfl) :
    Reads name (.ok i) True op w where
  wellFormed := by
    rintro _ ⟨⟩
    exact hwf
  encoded := by
    rintro _ ⟨⟩
    exact he
  named := by
    rintro _ ⟨⟩
    exact hn
  answers := iff_true_intro ⟨i, rfl⟩

theorem Reads.error {e : IllegalPacket} (hd : d = .error e) (h : ¬legal) : Reads name d legal op w := by
  have hnone : ∀ i, d ≠ .ok i := fun i hi => by cases hd.symm.trans hi
  exact ⟨fun i hi => absurd hi (hnone i), fun i hi => absurd hi (hnone i), fun i hi => absurd hi (hnone i),
    iff_of_false (fun ⟨i, hi⟩ => hnone i hi) h⟩

theorem Reads.of_iff (hr : Reads name d legal op w) (h : legal ↔ legal') : Reads name d legal' op w :=
  { hr with answers := hr.answers.trans h }

/-- A field that must be 0: its whole width stands in the mask. -/
theorem Reads.onlyZero {n : Nat} {f : BitVec n} {e : IllegalPacket} (h : f = 0#n → Reads name d legal op w) :
    Reads name (onlyZero f e d) (f &&& BitVec.allOnes n = 0#n ∧ legal) op w := by
  rw [BitVec.and_allOnes]
  by_cases hf : f = 0#n
  · rw [Sys2Proof.onlyZero, if_pos hf]
    exact (h hf).of_iff (iff_and_self.mpr fun _ => hf)
  · exact .error (if_neg hf) fun hl => hf hl.1

/-- An unused register field: all four bits stand in the mask (30_encoding.md R98 d). -/
theorem Reads.noReg {f : BitVec 4} (h : f = 0#4 → Reads name d legal op w) :
    Reads name (noReg f d) (f &&& 0xF#4 = 0#4 ∧ legal) op w :=
  .onlyZero h

/-- A register field: its top bit stands in the mask (30_encoding.md R98 c). -/
theorem Reads.regField {f : BitVec 4} {k : Reg → Decoded} (h : ∀ r, f = regBits r → Reads name (k r) legal op w) :
    Reads name (regField f k) (f &&& 0x8#4 = 0#4 ∧ legal) op w := by
  obtain ⟨hf, r, hr⟩ | ⟨hf, he⟩ := regField_cases f k
  · rw [hr, regField_regBits, ← hr]
    exact (h r hr).of_iff (iff_and_self.mpr fun _ => hf)
  · exact .error he fun hl => hf hl.1

/-- A byte that may have any value: no bit of it stands in the mask. -/
theorem Reads.freeByte {b : Byte} (hextra : legal) (h : Reads name d True op w) :
    Reads name d (b &&& 0x00#8 = 0#8 ∧ legal) op w :=
  h.of_iff (iff_of_true trivial ⟨BitVec.and_zero, hextra⟩)

/-- The start index of PR.SIEVE, a bound no mask can state (30_encoding.md R98 g). -/
theorem Reads.sieveIndex {b : Byte} (h : b.toNat ≤ 168 → Reads name d True op w) :
    Reads name (sieveIndex b d) (b &&& 0x00#8 = 0#8 ∧ decide (b.toNat ≤ 168) = true) op w := by
  by_cases hb : b.toNat ≤ 168
  · rw [Sys2Proof.sieveIndex, if_pos hb]
    exact .freeByte (decide_eq_true hb) (h hb)
  · exact .error (if_neg hb) fun hl => hb (of_decide_eq_true hl.2)

/-- The key selector of KEY.GET (30_encoding.md R98 h). -/
theorem Reads.selField {b : Byte} {f : KeySel → Decoded} (h : ∀ sel, b = selBits sel → Reads name (f sel) True op w) :
    Reads name (selField b f) (b &&& 0x7C#8 = 0#8 ∧ isSelector b = true) op w := by
  obtain ⟨sel, hb⟩ | ⟨hb, he⟩ := selField_cases b f
  · rw [hb, selField_selBits]
    exact (h sel hb).of_iff (iff_of_true trivial ⟨selBits_and_mask sel, isSelector_selBits sel⟩)
  · exact .error he fun hl => by simp [hb] at hl

theorem Reads.formatZ (h : w = 0#24 → Reads name d True op w) :
    Reads name (formatZ w d) (w &&& 0xFFFFFF#24 = 0#24) op w :=
  (Reads.onlyZero h).of_iff (and_iff_left trivial)

theorem Reads.formatR {m1 m2 m3 m4 : BitVec 4} {k : BitVec 4 → BitVec 4 → BitVec 4 → BitVec 4 → Decoded}
    (h : ∀ rd rs1 rs2 rs3, Reads name (k rd rs1 rs2 rs3)
      (rd &&& m1 = 0#4 ∧ rs1 &&& m2 = 0#4 ∧ rs2 &&& m3 = 0#4 ∧ rs3 &&& m4 = 0#4 ∧ True) op (bitsR rd rs1 rs2 rs3)) :
    Reads name (formatR w k) (w &&& maskR m1 m2 m3 m4 = 0#24) op w := by
  obtain ⟨rd, rs1, rs2, rs3, rfl⟩ | ⟨hlow, he⟩ := formatR_cases w k
  · rw [formatR_bitsR]
    exact (h rd rs1 rs2 rs3).of_iff (by rw [bitsR_and_maskR_iff, and_true])
  · exact .error he fun hl => hlow (extract_eq_zero_of_and_eq_zero hl BitVec.extractLsb'_append_eq_right)

theorem Reads.formatB {m : BitVec 4} {k : BitVec 4 → Off → Off → Decoded}
    (h : ∀ r off len, Reads name (k r off len) (r &&& m = 0#4 ∧ True) op (bitsB r off len)) :
    Reads name (formatB w k) (w &&& maskB m = 0#24) op w := by
  obtain ⟨r, off, len, rfl⟩ := exists_bitsB w
  rw [formatB_bitsB]
  exact (h r off len).of_iff (by rw [bitsB_and_maskB_iff, and_true])

theorem Reads.formatK {m1 m2 : BitVec 4} {m : Byte} {extra : Byte → Bool} {f : BitVec 4 → BitVec 4 → Byte → Decoded}
    (h : ∀ rd rs1 k, Reads name (f rd rs1 k)
      (rd &&& m1 = 0#4 ∧ rs1 &&& m2 = 0#4 ∧ k &&& m = 0#8 ∧ extra k = true) op (bitsK rd rs1 k)) :
    Reads name (formatK w f) (w &&& maskK m1 m2 m = 0#24 ∧ extra (w.extractLsb' 0 8) = true) op w := by
  obtain ⟨rd, rs1, k, rfl⟩ | ⟨hmid, he⟩ := formatK_cases w f
  · rw [formatK_bitsK]
    exact (h rd rs1 k).of_iff (by rw [bitsK_and_maskK_iff, bitsK_lowByte, and_assoc, and_assoc])
  · refine .error he fun hl => hmid (extract_eq_zero_of_and_eq_zero hl.1 ?_)
    exact (BitVec.extractLsb'_append_eq_of_le (by decide)).trans BitVec.extractLsb'_append_eq_right

theorem Reads.formatO {m : Byte} {f : Off → Byte → Decoded}
    (h : ∀ off byte, Reads name (f off byte) (byte &&& m = 0#8 ∧ True) op (bitsO off byte)) :
    Reads name (formatO w f) (w &&& maskO m = 0#24) op w := by
  obtain ⟨off, byte, rfl⟩ | ⟨hgap, he⟩ := formatO_cases w f
  · rw [formatO_bitsO]
    exact (h off byte).of_iff (by rw [bitsO_and_maskO_iff, and_true])
  · refine .error he fun hl => hgap.elim (fun h20 => h20 ?_) fun h8 => h8 ?_
    · refine extract_eq_zero_of_and_eq_zero hl ?_
      rw [maskO, BitVec.extractLsb'_append_eq_of_le (by decide), BitVec.extractLsb'_append_eq_of_le (by decide),
        BitVec.extractLsb'_append_eq_of_le (by decide)]
      rfl
    · refine extract_eq_zero_of_and_eq_zero hl ?_
      rw [maskO, BitVec.extractLsb'_append_eq_of_le (by decide)]
      exact BitVec.extractLsb'_append_eq_right

end

/-! The whole decoder beside the whole opcode map. -/

/-- The opcode a row selects, bits 31 to 24 of its match. -/
def OpcodeRow.op (r : OpcodeRow) : BitVec 8 := r.wordMatch.extractLsb' 24 8

/-- The row's mask over `word[23:0]`. -/
def OpcodeRow.restMask (r : OpcodeRow) : BitVec 24 := r.wordMask.extractLsb' 0 24

/-- What a row asks of `word[23:0]`. -/
def OpcodeRow.Admits (r : OpcodeRow) (w : BitVec 24) : Prop :=
  w &&& r.restMask = 0#24 ∧ r.extra (w.extractLsb' 0 8) = true

/-- A decoder of `word[23:0]` for an opcode answers well-formed commands that this word encodes, and they are those of
the rows with that opcode, by mnemonic. -/
structure Follows (op : BitVec 8) (w : BitVec 24) (rows : List OpcodeRow) (d : Decoded) : Prop where
  sound : ∀ i, d = .ok i → i.wellFormed = true ∧ encode i = packetOf 0#32 op w
  names : ∀ name, (∃ i, d = .ok i ∧ mnemonic i = name) ↔ ∃ r ∈ rows, r.name = name ∧ r.op = op ∧ r.Admits w

section
variable {op a : BitVec 8} {w : BitVec 24} {r : OpcodeRow} {rows : List OpcodeRow} {d d' : Decoded}

theorem Reads.exists_named_iff {name : String} {legal : Prop} (h : Reads name d legal op w) (name' : String) :
    (∃ i, d = .ok i ∧ mnemonic i = name') ↔ name = name' ∧ legal := by
  rw [← h.answers]
  constructor
  · rintro ⟨i, hi, rfl⟩
    exact ⟨(h.named i hi).symm, i, hi⟩
  · rintro ⟨rfl, i, hi⟩
    exact ⟨i, hi, h.named i hi⟩

theorem Follows.nil {e : IllegalPacket} : Follows op w [] (.error e) where
  sound i hi := by cases hi
  names name := by simp

/-- A row of another opcode changes nothing. -/
theorem Follows.skip (hop : op ≠ r.op) (h : Follows op w rows d) : Follows op w (r :: rows) d where
  sound := h.sound
  names name := by
    rw [h.names name]
    simp [hop.symm]

/-- The decoder's next branch and the map's next row belong together. -/
theorem Follows.cons {m : BitVec 24}
    (hbranch : Reads r.name d (w &&& m = 0#24 ∧ r.extra (w.extractLsb' 0 8) = true) a w)
    (hrest : Follows op w rows d') (htable : r.op = a ∧ r.restMask = m ∧ ∀ r' ∈ rows, r'.op ≠ a := by decide) :
    Follows op w (r :: rows) (if op = a then d else d') := by
  obtain ⟨rfl, rfl, hother⟩ := htable
  split
  · next hop =>
    subst hop
    refine ⟨fun i hi => ⟨hbranch.wellFormed i hi, hbranch.encoded i hi⟩, fun name => ?_⟩
    rw [hbranch.exists_named_iff]
    constructor
    · rintro ⟨hn, hadmits⟩
      exact ⟨r, List.mem_cons_self, hn, rfl, hadmits⟩
    · rintro ⟨r', hr', hn, hop, hadmits⟩
      obtain rfl | hr' := List.mem_cons.mp hr'
      · exact ⟨hn, hadmits⟩
      · exact absurd hop (hother r' hr')
  · next hop => exact hrest.skip hop

/-- The same for a row with no extra condition. -/
theorem Follows.plain {name : String} {wordMatch wordMask : BitVec 32} {m : BitVec 24}
    (hbranch : Reads name d (w &&& m = 0#24) a w) (hrest : Follows op w rows d')
    (htable : (plainRow name wordMatch wordMask).op = a ∧ (plainRow name wordMatch wordMask).restMask = m ∧
      ∀ r' ∈ rows, r'.op ≠ a := by decide) :
    Follows op w (plainRow name wordMatch wordMask :: rows) (if op = a then d else d') :=
  .cons (r := plainRow name wordMatch wordMask) (hbranch.of_iff (and_iff_left rfl).symm) hrest htable

end

/-- The decoder's branches are the rows of the map, in the map's order; the row of PRBG.SETUP, which is decoded before
them, is passed over. Each line names the format and the fields of one row, and from them comes the row's mask. -/
theorem decodeWord_follows_opcodeMap {op : BitVec 8} (hop : op ≠ 0x30#8) (w : BitVec 24) :
    Follows op w opcodeMap (decodeWord op w) := by
  unfold decodeWord
  refine .plain (.formatZ fun _ => .ok) ?_
  refine .plain (.formatZ fun _ => .ok) ?_
  refine .plain (.formatO fun _ _ => .freeByte trivial .ok) ?_
  refine .plain (.formatO fun _ _ => .onlyZero fun _ => .ok) ?_
  refine .plain (.formatB fun _ _ _ => .noReg fun _ => .ok) ?_
  refine .plain (.formatZ fun _ => .ok) ?_
  refine .plain (.formatB fun _ _ _ => .noReg fun _ => .ok) ?_
  refine .plain (.formatB fun _ _ _ => .noReg fun _ => .ok) ?_
  refine .cons (.formatK fun _ _ _ => .noReg fun _ => .noReg fun _ => .freeByte rfl .ok) ?_
  refine .plain (.formatZ fun _ => .ok) ?_
  refine .plain (.formatZ fun _ => .ok) ?_
  refine .skip hop ?_
  refine .plain (.formatB fun _ _ _ => .regField fun _ _ => .ok) ?_
  refine .plain (.formatB fun _ _ _ => .regField fun _ _ => .ok) ?_
  refine .plain (.formatR fun _ _ _ _ => .regField fun _ _ => .regField fun _ _ => .regField fun _ _ =>
    .noReg fun _ => .ok) ?_
  refine .plain (.formatR fun _ _ _ _ => .regField fun _ _ => .regField fun _ _ => .regField fun _ _ =>
    .regField fun _ _ => .ok) ?_
  refine .plain (.formatR fun _ _ _ _ => .regField fun _ _ => .regField fun _ _ => .regField fun _ _ =>
    .noReg fun _ => .ok) ?_
  refine .cons (.formatK fun _ _ _ => .noReg fun _ => .regField fun _ _ => .sieveIndex fun hk =>
    .ok (decide_eq_true hk)) ?_
  refine .plain (.formatR fun _ _ _ _ => .noReg fun _ => .regField fun _ _ => .noReg fun _ => .noReg fun _ => .ok) ?_
  refine .plain (.formatR fun _ _ _ _ => .regField fun _ _ => .regField fun _ _ => .noReg fun _ => .noReg fun _ =>
    .ok) ?_
  refine .plain (.formatR fun _ _ _ _ => .regField fun _ _ => .regField fun _ _ => .noReg fun _ => .noReg fun _ =>
    .ok) ?_
  refine .plain (.formatB fun _ _ _ => .noReg fun _ => .ok) ?_
  refine .cons (.formatK fun _ _ _ => .regField fun _ _ => .noReg fun _ => .selField fun _ _ => .ok) ?_
  exact .nil

/-! From `word[23:0]` to the packet. -/

theorem onlyZero_eq_ok_iff {n : Nat} (f : BitVec n) (e : IllegalPacket) (d : Decoded) (i : Instr) :
    onlyZero f e d = .ok i ↔ f = 0#n ∧ d = .ok i := by
  unfold onlyZero
  split
  · next h => simp [h]
  · next h => simp [h]

/-- Outside PRBG.SETUP a packet is a command iff its `arg` is 0 and the rest of it decodes to the command
(30_encoding.md R87). -/
theorem decode_eq_ok_iff_of_ne {p : Packet} (hop : pktOp p ≠ 0x30#8) (i : Instr) :
    decode p = .ok i ↔ pktArg p = 0#32 ∧ decodeWord (pktOp p) (pktRest p) = .ok i := by
  unfold decode
  rw [if_neg hop]
  cases decodeWord (pktOp p) (pktRest p) with
  | error e => simp
  | ok j => exact onlyZero_eq_ok_iff _ _ _ i

/-- PRBG.SETUP takes any `arg`, and no other bit. -/
theorem decode_eq_ok_iff_of_setup {p : Packet} (hop : pktOp p = 0x30#8) (i : Instr) :
    decode p = .ok i ↔ pktRest p = 0#24 ∧ i = .prbgSetup (pktArg p) := by
  unfold decode
  rw [if_pos hop, formatZ, onlyZero_eq_ok_iff, Except.ok.injEq, eq_comm (b := i)]

/-- Settles O2: every branch answers only commands that the word encodes, and the parts make up the packet. -/
theorem encodeDecodeRoundTrip : Obligations.EncodeDecodeRoundTrip := by
  intro p i h
  rw [← packetOf_parts p]
  by_cases hop : pktOp p = 0x30#8
  · obtain ⟨hrest, rfl⟩ := (decode_eq_ok_iff_of_setup hop i).mp h
    rw [hop, hrest]
    exact ⟨rfl, rfl⟩
  · obtain ⟨harg, hw⟩ := (decode_eq_ok_iff_of_ne hop i).mp h
    rw [harg]
    exact (decodeWord_follows_opcodeMap hop (pktRest p)).sound i hw

/-- Every row fixes the whole opcode and asks nothing but zeros of the other bits under its mask. -/
theorem opcodeMap_shape {r : OpcodeRow} (hr : r ∈ opcodeMap) :
    r.wordMatch = r.op ++ 0#24 ∧ r.wordMask = 0xFF#8 ++ r.restMask := by
  revert r
  decide

/-- `arg` is free in the row of PRBG.SETUP alone (30_encoding.md R87). -/
theorem opcodeMap_argFree_iff {r : OpcodeRow} (hr : r ∈ opcodeMap) : r.argFree = true ↔ r.op = 0x30#8 := by
  revert r
  decide

/-- A row selects a packet by its opcode, by what it asks of `word[23:0]` and by its `arg`. -/
theorem OpcodeRow.selects_iff {r : OpcodeRow} (hr : r ∈ opcodeMap) (p : Packet) :
    r.selects p = true ↔ r.op = pktOp p ∧ r.Admits (pktRest p) ∧ (r.op = 0x30#8 ∨ pktArg p = 0#32) := by
  obtain ⟨hmatch, hmask⟩ := opcodeMap_shape hr
  have hword : p.extractLsb' 0 32 = pktOp p ++ pktRest p :=
    (BitVec.extractLsb'_append_extractLsb'_eq_extractLsb' (start₁ := 0) (len₁ := 24) (by rfl)).symm
  have hlow : p.extractLsb' 0 8 = (pktRest p).extractLsb' 0 8 := by
    simp [pktRest]
  have hmatches : p.extractLsb' 0 32 &&& r.wordMask = r.wordMatch ↔
      r.op = pktOp p ∧ pktRest p &&& r.restMask = 0#24 := by
    have hand : pktOp p &&& 0xFF#8 = pktOp p := BitVec.and_allOnes
    rw [hword, hmatch, hmask, BitVec.and_append, hand, eq_comm (a := r.op)]
    exact append_eq_append_iff _ _ _ _
  simp only [OpcodeRow.selects, Bool.and_eq_true, Bool.or_eq_true, decide_eq_true_eq, hmatches, hlow,
    opcodeMap_argFree_iff hr]
  constructor
  · rintro ⟨⟨⟨hop, hzeros⟩, harg⟩, hextra⟩
    exact ⟨hop, ⟨hzeros, hextra⟩, harg⟩
  · rintro ⟨hop, ⟨hzeros, hextra⟩, harg⟩
    exact ⟨⟨⟨hop, hzeros⟩, harg⟩, hextra⟩

/-- The row of PRBG.SETUP asks for zeros and nothing else. -/
theorem setup_row {r : OpcodeRow} (hr : r ∈ opcodeMap) (hop : r.op = 0x30#8) :
    r.name = "PRBG.SETUP" ∧ r.restMask = 0xFFFFFF#24 := by
  revert r
  decide

theorem exists_setup_row : ∃ r ∈ opcodeMap, r.op = 0x30#8 ∧ ∀ b, r.extra b = true :=
  ⟨⟨"PRBG.SETUP", 0x30000000#32, 0xFFFFFFFF#32, true, fun _ => true⟩, by simp [opcodeMap], rfl, fun _ => rfl⟩

/-- Settles O3: for PRBG.SETUP from its one row, for every other opcode from the walk over the map. -/
theorem legalPacketsAreTheOpcodeMap : Obligations.LegalPacketsAreTheOpcodeMap := by
  intro p name
  by_cases hop : pktOp p = 0x30#8
  · simp only [decode_eq_ok_iff_of_setup hop]
    constructor
    · rintro ⟨i, ⟨hrest, rfl⟩, rfl⟩
      obtain ⟨r, hr, hrop, hextra⟩ := exists_setup_row
      have hadmits : r.Admits (pktRest p) := ⟨by rw [hrest, BitVec.zero_and], hextra _⟩
      exact ⟨r, hr, (setup_row hr hrop).1, (OpcodeRow.selects_iff hr p).mpr ⟨hrop.trans hop.symm, hadmits, .inl hrop⟩⟩
    · rintro ⟨r, hr, rfl, hs⟩
      obtain ⟨hrop, ⟨hmask, -⟩, -⟩ := (OpcodeRow.selects_iff hr p).mp hs
      obtain ⟨hname, hall⟩ := setup_row hr (hrop.trans hop)
      rw [hall] at hmask
      exact ⟨_, ⟨BitVec.and_allOnes.symm.trans hmask, rfl⟩, hname.symm⟩
  · have hwalk := (decodeWord_follows_opcodeMap hop (pktRest p)).names name
    simp only [decode_eq_ok_iff_of_ne hop, and_assoc, exists_and_left, hwalk]
    constructor
    · rintro ⟨harg, r, hr, hn, hrop, hadmits⟩
      exact ⟨r, hr, hn, (OpcodeRow.selects_iff hr p).mpr ⟨hrop, hadmits, .inr harg⟩⟩
    · rintro ⟨r, hr, hn, hs⟩
      obtain ⟨hrop, hadmits, hsetup | harg⟩ := (OpcodeRow.selects_iff hr p).mp hs
      · exact absurd (hrop.symm.trans hsetup) hop
      · exact ⟨harg, r, hr, hn, hrop, hadmits⟩

end Sys2Proof.Machine
end

section
/-! PROOFS. The generator: its step, the reseed from BUF, and the stream that XS.NEXT and XS.FILL hand out. -/

namespace Sys2Proof.Machine

/-! The lines of the step (40_xorshift.md R116). -/

/-- The arithmetic right shift is the floor division of the signed reading, taken modulo 2^64 (00_scope.md R15). -/
theorem sar64_eq_ofInt_fdiv (a : U64) (n : Nat) : sar64 a n = BitVec.ofInt 64 (Int.fdiv a.toInt (2 ^ n)) := by
  rw [sar64, BitVec.sshiftRight, Int.shiftRight_eq_div_pow, Int.fdiv_eq_ediv_of_nonneg _ (by positivity), Nat.cast_pow,
    Nat.cast_ofNat]

theorem sar64_not (a : U64) (n : Nat) : sar64 (~~~a) n = ~~~sar64 a n := by
  unfold sar64
  rw [← BitVec.not_sshiftRight_not, BitVec.not_not]

/-- A line that shifts left sends only 0 to 0: where `x` is its own left shift, each bit is a lower bit or 0. -/
theorem xor_shiftLeft_eq_zero_iff {w k : Nat} (hk : 0 < k) (x : BitVec w) : x ^^^ x <<< k = 0#w ↔ x = 0#w := by
  refine ⟨fun h => ?_, fun h => by simp [h]⟩
  have hself : x = x <<< k := BitVec.xor_eq_zero_iff.mp h
  have hbits : ∀ i, x.getLsbD i = false := fun i => by
    induction i using Nat.strong_induction_on with
    | _ i ih =>
      rw [hself, BitVec.getLsbD_shiftLeft]
      by_cases hi : i < k
      · simp [hi]
      · simp [ih (i - k) (by omega)]
  exact BitVec.eq_of_getLsbD_eq fun i _ => by simp [hbits]

/-- A line that shifts left is linear, so it is one-to-one. -/
theorem xor_shiftLeft_inj {w k : Nat} (hk : 0 < k) {x y : BitVec w} (h : x ^^^ x <<< k = y ^^^ y <<< k) : x = y := by
  have hzero : (x ^^^ y) ^^^ (x ^^^ y) <<< k = 0#w := by
    calc (x ^^^ y) ^^^ (x ^^^ y) <<< k = (x ^^^ x <<< k) ^^^ (y ^^^ y <<< k) := by
          rw [BitVec.shiftLeft_xor_distrib]; ac_rfl
      _ = 0#w := by rw [h, BitVec.xor_self]
  exact BitVec.xor_eq_zero_iff.mp ((xor_shiftLeft_eq_zero_iff hk _).mp hzero)

/-- The second line gives 0 from the two values that are their own arithmetic shift: signed, 0 and -1. -/
theorem xor64_sar64_eq_zero_iff (a : U64) : xor64 a (sar64 a 17) = 0#64 ↔ a = 0#64 ∨ a = BitVec.allOnes 64 := by
  constructor
  · intro h
    have hself : a = sar64 a 17 := BitVec.xor_eq_zero_iff.mp h
    have hdiv : a.toInt = a.toInt / 2 ^ 17 := by
      conv_lhs => rw [hself, sar64, BitVec.toInt_sshiftRight, Int.shiftRight_eq_div_pow]
      norm_num
    have hval : a.toInt = 0 ∨ a.toInt = -1 := by omega
    exact hval.imp (fun h0 => BitVec.eq_of_toInt_eq h0) fun h1 => BitVec.eq_of_toInt_eq h1
  · rintro (rfl | rfl) <;> decide

theorem xsStep_eq_zero_iff (x : U64) : xsStep x = 0#64 ↔ x = 0#64 ∨ x = 0xFFF0007FFC001FFF#64 := by
  have hones : (0xFFF0007FFC001FFF#64 ^^^ 0xFFF0007FFC001FFF#64 <<< 13 : U64) = BitVec.allOnes 64 := by decide
  calc xsStep x = 0#64
      ↔ xor64 (x ^^^ x <<< 13) (sar64 (x ^^^ x <<< 13) 17) = 0#64 := xor_shiftLeft_eq_zero_iff (k := 5) (by decide) _
    _ ↔ x ^^^ x <<< 13 = 0#64 ∨ x ^^^ x <<< 13 = BitVec.allOnes 64 := xor64_sar64_eq_zero_iff _
    _ ↔ x = 0#64 ∨ x = 0xFFF0007FFC001FFF#64 := by
      refine or_congr (xor_shiftLeft_eq_zero_iff (by decide) x) ⟨fun h => ?_, fun h => h ▸ hones⟩
      exact xor_shiftLeft_inj (k := 13) (by decide) (h.trans hones.symm)

/-- Settles O24: the shift commutes with the complement; back through the three lines, 0 comes from 0 and all ones. -/
theorem generatorStepCollisions : Obligations.GeneratorStepCollisions := by
  refine ⟨fun a => ?_, xsStep_eq_zero_iff⟩
  rw [sar64_not, xor64, ← BitVec.not_xor_left, ← BitVec.not_xor_right, BitVec.not_not, xor64]

/-! The big-endian value of a range (40_xorshift.md R118). -/

theorem memReadRange_add (m : Memory) (off n k : Nat) :
    memReadRange m off (n + k) = memReadRange m off n ++ memReadRange m (off + n) k := by
  rw [memReadRange_eq_map, memReadRange_eq_map, memReadRange_eq_map, List.range_add, List.map_append, List.map_map]
  simp only [Function.comp_def, Nat.add_assoc]

/-- A byte put below a value is one more digit to the base 256. -/
theorem toNat_append_byte {w : Nat} (x : BitVec w) (b : Byte) : (x ++ b).toNat = x.toNat * 256 + b.toNat := by
  rw [BitVec.toNat_append, ← Nat.shiftLeft_add_eq_or_of_lt b.isLt, Nat.shiftLeft_eq]

/-- A reseed keeps the last four bytes only: those before them are multiples of 2^32. -/
theorem seedOf_append_four (s : List Byte) (a b c d : Byte) :
    seedOf (s ++ [a, b, c, d]) = 0#32 ++ a ++ b ++ c ++ d := by
  have hpow : 256 ^ [a, b, c, d].length = 2 ^ 32 := by norm_num
  have hlow : be (s ++ [a, b, c, d]) % 2 ^ 32 = be [a, b, c, d] := by
    rw [be_append, hpow, Nat.mul_add_mod_self_right]
    exact Nat.mod_eq_of_lt (hpow ▸ be_lt [a, b, c, d])
  have hword : (0#32 ++ a ++ b ++ c ++ d).toNat = be [a, b, c, d] := by
    simp only [toNat_append_byte, be, List.foldl, BitVec.toNat_ofNat, Nat.zero_mod]
  rw [seedOf, hlow, ← hword, BitVec.ofNat_toNat, BitVec.setWidth_eq]

theorem seedOf_toNat (s : List Byte) : (seedOf s).toNat = be s % 2 ^ 32 := by
  rw [seedOf, BitVec.toNat_ofNat]
  exact Nat.mod_eq_of_lt (Nat.lt_trans (Nat.mod_lt _ (by decide)) (by decide))

/-! What the commands answer when their checks pass. -/

/-- XS.RESEED that passes its checks (40_xorshift.md R118). -/
theorem exec_xsReseed {off len : Off} {s : State} (hd : s.discard = false) (hlen : len ≠ 0#10)
    (hfits : off.toNat + len.toNat ≤ 1024) :
    exec (.xsReseed off len) s =
      .next ({ s with xs := seedOf (s.readRange off len), seeded := true }.answered .ok 0#32) := by
  change execXsReseed off len s = _
  rw [execXsReseed, if_neg hlen, if_neg (by simp [rangeFits_iff.mpr hfits])]
  exact State.command_ok hd _ _

/-- XS.NEXT that passes its checks (40_xorshift.md R120). -/
theorem exec_xsNext {s : State} (hd : s.discard = false) (hs : s.seeded = true) :
    exec .xsNext s = .next ((s.setXs (xsStep s.xs)).answered .ok ((xsOut (xsStep s.xs)).setWidth 32)) := by
  change execXsNext s = _
  rw [execXsNext, if_neg (by simp [hs])]
  exact State.command_ok hd _ _

/-- XS.FILL that passes its checks (40_xorshift.md R122). -/
theorem exec_xsFill {off len : Off} {s : State} (hd : s.discard = false) (hs : s.seeded = true)
    (hfits : off.toNat + len.toNat ≤ 1024) :
    exec (.xsFill off len) s =
      .next (((s.writeRange off (xsBytes len.toNat s.xs)).setXs (xsIter len.toNat s.xs)).answered .ok 0#32) := by
  change execXsFill off len s = _
  rw [execXsFill, if_neg (by simp [hs]), if_neg (by simp [rangeFits_iff.mpr hfits])]
  exact State.command_ok hd _ _

/-- BUF.WR: every offset of its ten bits is a cell of BUF (46_system.md R274). -/
theorem exec_bufWr {off : Off} {byte : Byte} {s : State} (hd : s.discard = false) :
    exec (.bufWr off byte) s = .next ({ s with buf := memWrite s.buf off.toNat byte }.answered .ok 0#32) := by
  have hcell : cellFits off = true := decide_eq_true off.isLt
  change execBufWr off byte s = _
  rw [execBufWr, if_pos hcell]
  exact State.command_ok hd _ _

/-- Settles O20: the range's bytes are those before the last four, then the last four. -/
theorem reseedLoadsBigEndianValue : Obligations.ReseedLoadsBigEndianValue := by
  intro off len s hd hlen hfits
  refine ⟨_, exec_xsReseed hd hlen hfits, ?_, fun hfour => ?_⟩
  · rw [seedOf_toNat, State.rangeValue_eq_be]
    rfl
  · obtain ⟨n, hn⟩ := Nat.exists_eq_add_of_le' hfour
    have hlast : s.readRange off len = memReadRange s.buf off.toNat n ++
        [memRead s.buf (off.toNat + n), memRead s.buf (off.toNat + n + 1), memRead s.buf (off.toNat + n + 2),
          memRead s.buf (off.toNat + n + 3)] := by
      rw [State.readRange, hn, memReadRange_add]
      rfl
    rw [hlast, seedOf_append_four, hn]
    rfl

/-- Settles O21: the arithmetic shift read as a floor division. -/
theorem nextStepsTheGenerator : Obligations.NextStepsTheGenerator := by
  intro s hd hs a b c
  have hstep : xsStep s.xs = c := by
    simp only [xsStep, sar64_eq_ofInt_fdiv]
    rfl
  have hout : xsOut c = c.extractLsb' 0 8 := BitVec.setWidth_eq_extractLsb' (by decide)
  rw [exec_xsNext hd hs, hstep, hout]
  rfl

/-! The stream in BUF (40_xorshift.md R122). -/

/-- The byte of the stream at a place, with the state after so many steps. -/
theorem xsBytes_getD {n i : Nat} (h : i < n) (x : U64) : (xsBytes n x).getD i 0#8 = (xsStep^[i + 1] x).setWidth 8 := by
  have hi : i < (xsBytes n x).length := by rwa [xsBytes_length]
  rw [List.getD_eq_getElem _ _ hi, xsBytes_getElem, xsIter_eq_iterate]
  rfl

/-- Settles O22: a read of the filled range finds the stream's bytes. -/
theorem fillStoresTheStream : Obligations.FillStoresTheStream := by
  intro off len s hd hs hfits
  refine ⟨memWriteRange s.buf off.toNat (xsBytes len.toNat s.xs), ?_, fun a => ?_⟩
  · rw [exec_xsFill hd hs hfits, xsIter_eq_iterate]
    rfl
  · rw [memRead_memWriteRange, xsBytes_length]
    split
    · next ha => exact xsBytes_getD (by omega) _
    · rfl

/-- The next offset does not wrap where there is a byte to store at it. -/
theorem memWriteRange_next (m : Memory) (off : Off) (bytes : List Byte) (h : off.toNat + 1 + bytes.length ≤ 1024) :
    memWriteRange m (off + 1#10).toNat bytes = memWriteRange m (off.toNat + 1) bytes := by
  cases bytes with
  | nil => rfl
  | cons b bytes =>
    rw [List.length_cons] at h
    rw [show (off + 1#10).toNat = off.toNat + 1 by bv_omega]

theorem runAll_cons {i : Instr} {s t : State} (is : List Instr) (h : exec i s = .next t) :
    runAll (i :: is) s = runAll is t := by
  rw [runAll, h]

/-- One round of the host: a generator step, and its byte in BUF. -/
theorem runAll_nextAndWrite {s : State} (off : Off) (is : List Instr) (hd : s.discard = false) (hs : s.seeded = true) :
    runAll (.xsNext :: .bufWr off (xsOut (xsStep s.xs)) :: is) s =
      runAll is
        ({ s with xs := xsStep s.xs, buf := memWrite s.buf off.toNat (xsOut (xsStep s.xs)) }.answered .ok 0#32) :=
  (runAll_cons _ (exec_xsNext hd hs)).trans (runAll_cons _ (exec_bufWr hd))

/-- The host's commands leave the state of the fill, with some response on the port. -/
theorem runAll_fillByHand (n : Nat) (off : Off) (s : State) (hd : s.discard = false) (hs : s.seeded = true)
    (hfits : off.toNat + n ≤ 1024) :
    ∃ r, runAll (fillByHand off n s.xs) s =
      .next { (s.writeRange off (xsBytes n s.xs)).setXs (xsIter n s.xs) with response := r } := by
  induction n generalizing off s with
  | zero => exact ⟨s.response, rfl⟩
  | succ n ih =>
    obtain ⟨r, hr⟩ := ih (off + 1#10)
      ({ s with xs := xsStep s.xs, buf := memWrite s.buf off.toNat (xsOut (xsStep s.xs)) }.answered .ok 0#32)
      hd hs (by bv_omega)
    refine ⟨r, (runAll_nextAndWrite off _ hd hs).trans (hr.trans ?_)⟩
    simp only [State.writeRange]
    rw [memWriteRange_next _ _ _ (by rw [xsBytes_length]; omega)]
    rfl

/-- Settles O23: both end in the filled state, but for the response. -/
theorem fillEqualsNextAndWrite : Obligations.FillEqualsNextAndWrite := by
  intro off len s hd hs hfits
  obtain ⟨r, hr⟩ := runAll_fillByHand len.toNat off s hd hs hfits
  exact ⟨_, _, exec_xsFill hd hs hfits, hr, rfl⟩

end Sys2Proof.Machine
end

section
/-! PROOFS. The window and the pattern: the two as lists of entries, what a push does to the list, and what the commands
SW.LOADPAT, SW.PUSH, SW.MATCH and SW.CLEAR answer. -/

namespace Sys2Proof.Machine

/-! The first entries of PAT or WIN as a list. -/

theorem toList_take_eq_map_entry (v : Vector Byte 31) {n : Nat} (h : n ≤ 31) :
    v.toList.take n = (List.range n).map (entry v) := by
  refine List.ext_getElem (by simp [h]) fun i hi _ => ?_
  have hlt : i < 31 := by rw [List.length_take, Vector.length_toList] at hi; omega
  simp [entry_eq_getElem v i hlt]

theorem entry_setIfInBounds (v : Vector Byte 31) (n : Nat) (b : Byte) {i : Nat} (h : i < 31) :
    entry (v.setIfInBounds n b) i = if n = i then b else entry v i := by
  rw [entry_eq_getElem _ i h, entry_eq_getElem v i h, Vector.getElem_setIfInBounds h]

theorem entry_shiftIn (v : Vector Byte 31) (len : Nat) (b : Byte) {i : Nat} (h : i < 31) :
    entry (shiftIn v len b) i =
      if i + 1 < len then entry v (i + 1) else if i + 1 = len then b else entry v i := by
  rw [entry_eq_getElem _ i h, shiftIn_getElem v len b i h, entry_eq_getElem v i h]

/-- A byte put behind the first `n` entries. -/
theorem take_setIfInBounds (v : Vector Byte 31) {n : Nat} (b : Byte) (h : n < 31) :
    (v.setIfInBounds n b).toList.take (n + 1) = v.toList.take n ++ [b] := by
  rw [toList_take_eq_map_entry _ h, toList_take_eq_map_entry v h.le, List.range_succ, List.map_append, List.map_singleton,
    entry_setIfInBounds v n b h, if_pos rfl]
  refine congrArg (· ++ [b]) (List.map_congr_left fun i hi => ?_)
  have hin : i < n := List.mem_range.mp hi
  rw [entry_setIfInBounds v n b (hin.trans h), if_neg hin.ne']

/-- Every entry moves one place down, the first is dropped and the byte comes last. -/
theorem take_shiftIn (v : Vector Byte 31) {m : Nat} (b : Byte) (h : m < 31) :
    (shiftIn v (m + 1) b).toList.take (m + 1) = (v.toList.take (m + 1)).tail ++ [b] := by
  have htail : ((List.range (m + 1)).map (entry v)).tail = (List.range m).map fun i => entry v (i + 1) := by
    rw [List.range_succ_eq_map, List.map_cons, List.tail_cons, List.map_map]
    rfl
  rw [toList_take_eq_map_entry _ h, toList_take_eq_map_entry v h, htail, List.range_succ, List.map_append,
    List.map_singleton, entry_shiftIn v _ b h, if_neg (Nat.lt_irrefl _), if_pos rfl]
  refine congrArg (· ++ [b]) (List.map_congr_left fun i hi => ?_)
  have him : i < m := List.mem_range.mp hi
  rw [entry_shiftIn v _ b (him.trans h), if_pos (Nat.succ_lt_succ him)]

/-! The window (41_window.md R137, R139, R143). -/

theorem State.window_length (s : State) : s.window.length = s.winLen.val := by
  rw [State.window, List.length_take, Vector.length_toList]
  exact Nat.min_eq_left (Nat.le_of_lt_succ s.winLen.isLt)

/-- A push writes nothing but the window. -/
theorem State.swPush_eq (s : State) (b : Byte) :
    s.swPush b = { s with win := (s.swPush b).win, winLen := (s.swPush b).winLen } := by
  obtain ⟨-, he⟩ | ⟨-, he⟩ := s.swPush_cases b <;> rw [he]

/-- What a push does to the window as a list (41_window.md R137). -/
theorem State.swPush_window {s : State} (b : Byte) (hpos : 0 < s.patLen.val) (hcap : s.winLen ≤ s.patLen) :
    (s.swPush b).window =
      if s.window.length < s.patLen.val then s.window ++ [b] else s.window.tail ++ [b] := by
  have hmax : s.patLen.val ≤ 31 := Nat.le_of_lt_succ s.patLen.isLt
  rw [s.window_length]
  obtain ⟨hlt, he⟩ | ⟨hfull, he⟩ := s.swPush_cases b
  · have hroom : s.winLen.val < s.patLen.val := hlt
    have hlen : (s.winLen + 1).val = s.winLen.val + 1 := Fin.val_add_one_of_lt' (n := 32) (by omega)
    rw [he, if_pos hroom, State.window, State.window, hlen]
    exact take_setIfInBounds s.win b (by omega)
  · have hlen : s.winLen.val = s.patLen.val := Nat.le_antisymm hcap (Nat.le_of_not_lt hfull)
    obtain ⟨m, hm⟩ := Nat.exists_eq_add_of_le' hpos
    rw [he, if_neg hlen.not_lt, State.window, State.window, hlen, hm]
    exact take_shiftIn s.win b (by omega)

/-- Both cases of a push at once: the byte is appended, and what exceeds the capacity is dropped at the front. -/
theorem State.swPush_window_eq_drop {s : State} (b : Byte) (hpos : 0 < s.patLen.val) (hcap : s.winLen ≤ s.patLen) :
    (s.swPush b).window = (s.window ++ [b]).drop (s.window.length + 1 - s.patLen.val) := by
  have hle : s.window.length ≤ s.patLen.val := s.window_length.trans_le hcap
  rw [s.swPush_window b hpos hcap]
  split
  · next hroom => rw [Nat.sub_eq_zero_of_le hroom, List.drop_zero]
  · next hfull =>
    have hone : s.window.length + 1 - s.patLen.val = 1 := by omega
    rw [hone, List.drop_append_of_le_length (by omega), List.drop_one]

theorem State.swPush_winLen {s : State} (b : Byte) (hpos : 0 < s.patLen.val) (hcap : s.winLen ≤ s.patLen) :
    (s.swPush b).winLen.val = min (s.winLen.val + 1) s.patLen.val := by
  have hle : s.winLen.val ≤ s.patLen.val := hcap
  rw [← State.window_length, s.swPush_window_eq_drop b hpos hcap, List.length_drop, List.length_append, s.window_length,
    List.length_singleton]
  omega

/-- The match test compares the two lists (41_window.md R139). -/
theorem State.swMatches_iff_window (s : State) :
    s.swMatches = true ↔ s.winLen = s.patLen ∧ s.window = s.pattern := by
  rw [s.swMatches_iff]
  refine and_congr_right fun hlen => ?_
  have hmax : s.patLen.val ≤ 31 := Nat.le_of_lt_succ s.patLen.isLt
  rw [State.window, State.pattern, hlen, toList_take_eq_map_entry s.win hmax, toList_take_eq_map_entry s.pat hmax,
    List.map_inj_left]
  simp only [List.mem_range]

/-! What the commands answer when their checks pass. -/

/-- A command with one check of its own that holds. -/
theorem State.command_passed {s u : State} {b : Bool} {c : Code} {v : BitVec 32} (hd : s.discard = false)
    (hb : b = true) : s.command (if !b then .error c else .ok (u, v)) = .next (u.answered .ok v) := by
  rw [if_neg (by simp [hb])]
  exact State.command_ok hd u v

/-- SW.LOADPAT that passes its checks (41_window.md R136). -/
theorem exec_swLoadpat {off len : Off} {s : State} (hd : s.discard = false) (hpos : 1 ≤ len.toNat)
    (hmax : len.toNat ≤ 31) (hfits : off.toNat + len.toNat ≤ 1024) :
    exec (.swLoadpat off len) s = .next ((s.loadPattern (s.readRange off len)).answered .ok 0#32) := by
  have hlen : ¬(len = 0#10 ∨ Config.maxPattern < len.toNat) := by
    rintro (rfl | hlong)
    · exact absurd hpos (by decide)
    · exact absurd hlong (Nat.not_lt.mpr hmax)
  change execSwLoadpat off len s = _
  rw [execSwLoadpat, if_neg hlen]
  exact State.command_passed hd (rangeFits_iff.mpr hfits)

/-- SW.PUSH that passes its checks (41_window.md R138). -/
theorem exec_swPush {k : Byte} {s : State} (hd : s.discard = false) (hp : s.patValid = true) :
    exec (.swPush k) s = .next ((s.swPush k).answered .ok 0#32) :=
  State.command_passed hd hp

/-- Settles O25: the entries of the loaded pattern are the range's bytes, then 0. -/
theorem loadPatternCopiesRange : Obligations.LoadPatternCopiesRange := by
  intro off len s hd hpos hmax hfits
  refine ⟨_, _, exec_swLoadpat hd hpos hmax hfits, ?_, fun i => ?_⟩
  · rw [State.readRange_length]
    exact Nat.mod_eq_of_lt (by omega)
  · rw [entriesOf_getElem _ _ i.isLt]
    split
    · next hi =>
      have hin : i.val < (s.readRange off len).length := by rwa [State.readRange_length]
      rw [List.getD_eq_getElem _ _ hin]
      exact memReadRange_getElem _ _ _ _ hin
    · next hi => exact List.getD_eq_default _ _ (by rw [State.readRange_length]; omega)

/-- Settles O26: the new window is that of the push function, which keeps the window invariant. -/
theorem pushAppendsOrEvicts : Obligations.PushAppendsOrEvicts := by
  intro k s hd hp hs
  have hpos : 0 < s.patLen.val := hs.validIffLength.mp hp
  refine ⟨(s.swPush k).win, (s.swPush k).winLen, ?_, s.swPush_window k hpos hs.withinCapacity,
    s.swPush_winLen k hpos hs.withinCapacity, (hs.swPush k).winRest⟩
  rw [exec_swPush hd hp, s.swPush_eq k]

/-- Bytes that an earlier push drops are among those that all the pushes together drop. -/
theorem drop_append_drop {cap : Nat} (l bytes : List Byte) :
    (l.drop (l.length - cap) ++ bytes).drop ((l.drop (l.length - cap)).length + bytes.length - cap) =
      (l ++ bytes).drop (l.length + bytes.length - cap) := by
  rw [← List.drop_append_of_le_length (Nat.sub_le _ _), List.drop_drop, List.length_drop]
  congr 1
  omega

/-- Pushes append to the window whatever it holds, and drop at the front what exceeds the capacity. -/
theorem runAll_swPush (bytes : List Byte) (s : State) (hd : s.discard = false) (hp : s.patValid = true)
    (hpos : 0 < s.patLen.val) (hcap : s.winLen ≤ s.patLen) :
    ∃ w n r, runAll (bytes.map fun b => Instr.swPush b) s = .next { s with win := w, winLen := n, response := r } ∧
      { s with win := w, winLen := n, response := r }.window =
        (s.window ++ bytes).drop (s.window.length + bytes.length - s.patLen.val) := by
  induction bytes generalizing s with
  | nil =>
    have hle : s.window.length ≤ s.patLen.val := s.window_length.trans_le hcap
    refine ⟨s.win, s.winLen, s.response, rfl, ?_⟩
    rw [List.append_nil, List.length_nil, Nat.add_zero, Nat.sub_eq_zero_of_le hle]
    rfl
  | cons b bytes ih =>
    have hroom : (s.swPush b).winLen ≤ s.patLen := by
      rw [Fin.le_def, s.swPush_winLen b hpos hcap]
      exact Nat.min_le_right _ _
    have hwin : (s.swPush b).window = (s.window ++ [b]).drop ((s.window ++ [b]).length - s.patLen.val) := by
      rw [s.swPush_window_eq_drop b hpos hcap, List.length_append, List.length_singleton]
    have hexec := exec_swPush (k := b) hd hp
    rw [s.swPush_eq b] at hexec
    obtain ⟨w, n, r, hrun, hw⟩ := ih
      ({ s with win := (s.swPush b).win, winLen := (s.swPush b).winLen }.answered .ok 0#32) hd hp hpos hroom
    refine ⟨w, n, r, (runAll_cons _ hexec).trans hrun, hw.trans ?_⟩
    change ((s.swPush b).window ++ bytes).drop ((s.swPush b).window.length + bytes.length - s.patLen.val) = _
    rw [hwin, drop_append_drop, List.append_assoc, List.singleton_append]
    congr 1
    simp only [List.length_append, List.length_cons, List.length_nil]
    omega

/-- Settles O27: from the empty window. -/
theorem pushesKeepTheLastBytes : Obligations.PushesKeepTheLastBytes := by
  intro bytes s hd hp hpos hempty
  have hnil : s.window = [] := by rw [State.window, hempty]; rfl
  obtain ⟨w, n, r, hrun, hw⟩ := runAll_swPush bytes s hd hp hpos (hempty ▸ Fin.zero_le _)
  rw [hnil, List.nil_append, List.length_nil, Nat.zero_add] at hw
  refine ⟨_, hrun, hw, ?_, rfl⟩
  rw [← State.window_length, hw, List.length_drop]
  omega

/-- Settles O28: the match test compares the two lists. -/
theorem matchAndClear : Obligations.MatchAndClear := by
  intro s hd hp
  have hmatch : exec .swMatch s = .next (s.answered .ok (if s.swMatches then 1#32 else 0#32)) :=
    State.command_passed hd hp
  exact ⟨by simp only [hmatch, s.swMatches_iff_window], State.command_passed hd hp⟩

end Sys2Proof.Machine
end

section
/-! PROOFS. PRBG.SETUP: its transitions one by one, the byte step against the host's own commands, and the delay loop. -/

namespace Sys2Proof.Machine

/-! The transitions (42_prbg_setup.md R174). -/

theorem step_of_cancel {s : State} (hr : s.pins.hardReset = false) (hp : s.phase = .sampling)
    (hc : s.pins.cancelReq = true) : step s = .next s.cancelSetup.tick := by
  simp [step, State.blockStep, State.sampleAndStep, hr, hp, hc]

theorem step_of_sampling {s : State} (hr : s.pins.hardReset = false) (hp : s.phase = .sampling)
    (hc : s.pins.cancelReq = false) : step s = .next s.byteStep.tick := by
  simp [step, State.blockStep, State.sampleAndStep, hr, hp, hc]

theorem step_of_drawing {s : State} (hr : s.pins.hardReset = false) (hp : s.phase = .drawing) :
    step s = .next s.reseedAndNext.tick := by
  simp [step, State.blockStep, hr, hp]

/-- Where the host's script is empty the levels hold, so the tick changes nothing (log entry 2). -/
theorem State.tick_of_levelsHold {s : State} (h : s.script = []) : s.tick = s := by
  rw [State.tick, h, List.headD_nil, List.tail_nil, ← h]

/-! The entry and the cancellation (R168, R169, R172). -/

/-- PRBG.SETUP that passes its checks while `cancel_req` is 0. -/
theorem exec_prbgSetup_begins {arg : BitVec 32} {s : State} (hd : s.discard = false) (hseeded : s.seeded = true)
    (hpat : s.patValid = true) (harg : arg ≠ 0#32) (hc : s.pins.cancelReq = false) :
    exec (.prbgSetup arg) s = .next (s.setupEntry arg) := by
  change execPrbgSetup arg s = _
  simp [execPrbgSetup, hd, hseeded, hpat, harg, hc]

/-- Settles O29: by the level of `cancel_req` at the acceptance, and the transition of a cancellation. -/
theorem setupBeginsAndCancels : Obligations.SetupBeginsAndCancels := by
  refine ⟨fun arg s hd hseeded hpat harg => ?_, fun s hr hp hc => step_of_cancel hr hp hc⟩
  split
  · next hc => exact exec_prbgSetup_cancelled hd hseeded hpat harg hc
  · next hc => exact exec_prbgSetup_begins hd hseeded hpat harg (Bool.eq_false_iff.mpr hc)

/-! The reseed (R171). -/

/-- The load of step 3b keeps the last four of the 64 bytes. -/
theorem seedOf_reseedDraw (x : U64) : seedOf (xsBytes Config.reseedDraw x) = (reseedWord x).setWidth 64 := by
  have hlast : xsBytes 64 x = xsBytes 60 x ++
      [xsOut (xsIter 61 x), xsOut (xsIter 62 x), xsOut (xsIter 63 x), xsOut (xsIter 64 x)] := by
    rw [xsBytes_succ 63, xsBytes_succ 62, xsBytes_succ 61, xsBytes_succ 60]
    simp only [List.append_assoc, List.cons_append, List.nil_append, Nat.reduceAdd]
  rw [Config.reseedDraw, hlast, seedOf_append_four, reseedWord]
  apply BitVec.eq_of_toNat_eq
  rw [BitVec.toNat_setWidth, Nat.mod_eq_of_lt (Nat.lt_trans (BitVec.isLt _) (by decide))]
  simp only [toNat_append_byte, BitVec.toNat_ofNat, Nat.zero_mod, Nat.zero_mul, Nat.zero_add]

/-- The new state of reseed_and_next, by whether the iteration was the last (R168, R174). -/
theorem State.reseedAndNext_eq (s : State) :
    s.reseedAndNext =
      if s.iterRem = 1#32 then
        { s with xs := (reseedWord s.xs).setWidth 64, win := Vector.replicate 31 0#8, winLen := 0,
                 iterRem := s.iterRem - 1#32, phase := .idle }.answered .ok 0#32
      else
        { s with xs := (reseedWord s.xs).setWidth 64, win := Vector.replicate 31 0#8, winLen := 0,
                 iterRem := s.iterRem - 1#32, phase := .sampling } := by
  have hlast : s.iterRem - 1#32 = 0#32 ↔ s.iterRem = 1#32 := by bv_omega
  rw [← seedOf_reseedDraw]
  exact if_congr hlast rfl rfl

/-- Settles O30: the transition of the drawing phase. -/
theorem reseedTransition : Obligations.ReseedTransition := by
  intro s hr hp x t
  rw [step_of_drawing hr hp, s.reseedAndNext_eq]
  split <;> rfl

/-! The byte step (R170). -/

theorem State.pattern_length (s : State) : s.pattern.length = s.patLen.val := by
  rw [State.pattern, List.length_take, Vector.length_toList]
  exact Nat.min_eq_left (Nat.le_of_lt_succ s.patLen.isLt)

/-- Equal lists have equal lengths: the window is the pattern only where it is full. -/
theorem State.swMatches_iff_window_eq (s : State) : s.swMatches = true ↔ s.window = s.pattern := by
  rw [s.swMatches_iff_window]
  refine and_iff_right_of_imp fun h => Fin.ext ?_
  rw [← s.window_length, h, s.pattern_length]

theorem State.drawAndPush_eq (s : State) :
    s.drawAndPush = { s with xs := xsStep s.xs, win := s.drawAndPush.win, winLen := s.drawAndPush.winLen } :=
  (s.setXs (xsStep s.xs)).swPush_eq (xsOut (xsStep s.xs))

/-- The new state of byte_step. -/
theorem State.byteStep_eq {s : State} (hp : s.phase = .sampling) :
    s.byteStep = { s with xs := xsStep s.xs, win := s.drawAndPush.win, winLen := s.drawAndPush.winLen,
                          phase := if s.drawAndPush.swMatches then .drawing else .sampling } := by
  unfold State.byteStep
  split
  · conv_lhs => rw [s.drawAndPush_eq]
  · conv_lhs => rw [s.drawAndPush_eq, hp]

/-- A response on the port is nothing to a push. -/
theorem State.swPush_answered (s : State) (b : Byte) (c : Code) (v : BitVec 32) :
    (s.answered c v).swPush b = (s.swPush b).answered c v := by
  rw [State.swPush, State.swPush, apply_ite (State.answered · c v)]
  rfl

@[simp] theorem State.drawAndPush_pattern (s : State) : s.drawAndPush.pattern = s.pattern := by
  simp [State.pattern]

/-- The host's SW.PUSH of the byte that XS.NEXT returned, then SW.MATCH (41_window.md R138, R140). -/
theorem runAll_pushAndMatch {s : State} {v : BitVec 32} (hd : s.discard = false) (hpat : s.patValid = true) :
    runAll [.swPush (xsOut (xsStep s.xs)), .swMatch] ((s.setXs (xsStep s.xs)).answered .ok v) =
      .next (s.drawAndPush.answered .ok (if s.drawAndPush.swMatches then 1#32 else 0#32)) := by
  have hpush : exec (.swPush (xsOut (xsStep s.xs))) ((s.setXs (xsStep s.xs)).answered .ok v) =
      .next (s.drawAndPush.answered .ok 0#32) := by
    rw [exec_swPush (s := (s.setXs (xsStep s.xs)).answered .ok v) hd hpat, State.swPush_answered]
    rfl
  have hmatch : exec .swMatch (s.drawAndPush.answered .ok 0#32) =
      .next (s.drawAndPush.answered .ok (if s.drawAndPush.swMatches then 1#32 else 0#32)) :=
    State.command_passed (s := s.drawAndPush.answered .ok 0#32) (by simpa using hd) (by simpa using hpat)
  exact (runAll_cons _ hpush).trans (runAll_cons _ hmatch)

/-- Settles O31: the byte step draws and pushes as the host's commands do, and tests the same match. -/
theorem byteStepEqualsHostCommands : Obligations.ByteStepEqualsHostCommands := by
  refine ⟨fun s hp hr hc => ?_, fun s hp hr hc hd hs hpat => ?_⟩
  · refine ⟨s.drawAndPush.win, s.drawAndPush.winLen, ?_, fun hw hpat => ?_⟩
    · have hmatch := s.drawAndPush.swMatches_iff_window
      rw [s.drawAndPush_patLen, s.drawAndPush_pattern] at hmatch
      rw [step_of_sampling hr hp hc, State.byteStep_eq hp, if_congr hmatch rfl rfl]
      rfl
    · have hstream : WindowSound (s.setXs (xsStep s.xs)) := hw.of_eq rfl rfl rfl rfl rfl
      have hpos : 0 < s.patLen.val := hw.validIffLength.mp hpat
      exact ⟨State.swPush_window _ hpos hw.withinCapacity, State.swPush_winLen _ hpos hw.withinCapacity,
        (hstream.swPush _).winRest⟩
  · refine ⟨xsOut (xsStep s.xs), _, _, _, step_of_sampling hr hp hc, exec_xsNext hd hs, rfl,
      runAll_pushAndMatch hd hpat, by simp, by simp, by simp, ?_⟩
    rw [State.byteStep_eq hp]
    cases s.drawAndPush.swMatches <;> simp

end Sys2Proof.Machine
end

section
/-! PROOFS. The delay loop of PRBG.SETUP: the inner loop runs to the first place of the stream where the pattern stands,
the outer loop from reseed to reseed. -/

namespace Sys2Proof.Machine

/-! Steps one after the other. -/

theorem runSteps_succ {n : Nat} {s t : State} (h : step s = .next t) : runSteps (n + 1) s = runSteps n t := by
  rw [runSteps, h]

theorem runSteps_one {s t : State} (h : step s = .next t) : runSteps 1 s = .next t := runSteps_succ h

theorem runSteps_add {m : Nat} {s t : State} (n : Nat) (h : runSteps m s = .next t) :
    runSteps (m + n) s = runSteps n t := by
  induction m generalizing s with
  | zero =>
    cases h
    rw [Nat.zero_add]
  | succ m ih =>
    obtain ⟨u, hu⟩ := step_next s
    rw [runSteps_succ hu] at h
    rw [Nat.add_right_comm, runSteps_succ hu, ih h]

/-! The window in the stream (R170). -/

/-- The last PATLEN of the first `k` bytes of the stream, all of them if there are fewer: the window after `k` byte steps
from an empty one. -/
def State.streamWindow (s : State) (k : Nat) : List Byte := (xsBytes k s.xs).drop (k - s.patLen.val)

theorem State.streamWindow_length (s : State) (k : Nat) : (s.streamWindow k).length = min k s.patLen.val := by
  rw [State.streamWindow, List.length_drop, xsBytes_length]
  omega

/-- The next byte of the stream comes behind; what exceeds the capacity is dropped at the front. -/
theorem State.streamWindow_succ (s : State) (k : Nat) :
    s.streamWindow (k + 1) =
      (s.streamWindow k ++ [xsOut (xsIter (k + 1) s.xs)]).drop ((s.streamWindow k).length + 1 - s.patLen.val) := by
  have hdrop := drop_append_drop (cap := s.patLen.val) (xsBytes k s.xs) [xsOut (xsIter (k + 1) s.xs)]
  rw [← xsBytes_succ, xsBytes_length] at hdrop
  exact hdrop.symm

theorem matchesAfter_iff_streamWindow (s : State) (k : Nat) :
    matchesAfter s.pattern s.xs k ↔ s.streamWindow k = s.pattern := by
  rw [matchesAfter, s.pattern_length]
  refine and_iff_right_of_imp fun h => ?_
  have hlen : (s.streamWindow k).length = s.pattern.length := congrArg List.length h
  rw [s.streamWindow_length, s.pattern_length] at hlen
  omega

/-! The inner loop. -/

/-- The state after `k` byte steps, with the window they leave. -/
def State.afterBytes (s : State) (k : Nat) (w : Vector Byte 31) (l : Fin 32) : State :=
  { s with xs := xsIter k s.xs, win := w, winLen := l }

/-- A byte step of the inner loop: the window moves on in the stream, and the phase tells whether it is the pattern. -/
theorem step_afterBytes {s : State} (hs : SetupReady s) {k : Nat} {w : Vector Byte 31} {l : Fin 32}
    (hw : (s.afterBytes k w l).window = s.streamWindow k) :
    ∃ w' l', (s.afterBytes (k + 1) w' l').window = s.streamWindow (k + 1) ∧
      step (s.afterBytes k w l) =
        .next { s.afterBytes (k + 1) w' l' with
                  phase := if s.streamWindow (k + 1) = s.pattern then .drawing else .sampling } := by
  have hcap : (s.afterBytes k w l).winLen ≤ s.patLen := by
    rw [Fin.le_def, ← State.window_length, hw, s.streamWindow_length]
    exact Nat.min_le_right _ _
  have hnext : (s.afterBytes k w l).drawAndPush.window = s.streamWindow (k + 1) := by
    have hpush := State.swPush_window_eq_drop (s := (s.afterBytes k w l).setXs (xsStep (xsIter k s.xs)))
      (xsOut (xsStep (xsIter k s.xs))) hs.patternLoaded hcap
    rw [s.streamWindow_succ, ← hw, xsIter_succ]
    exact hpush
  have hmatch := (s.afterBytes k w l).drawAndPush.swMatches_iff_window_eq
  rw [hnext, State.drawAndPush_pattern] at hmatch
  have hlevels : (s.afterBytes k w l).byteStep.script = [] := by rw [State.byteStep_script]; exact hs.levelsHold
  refine ⟨(s.afterBytes k w l).drawAndPush.win, (s.afterBytes k w l).drawAndPush.winLen, hnext, ?_⟩
  rw [step_of_sampling (s := s.afterBytes k w l) hs.noReset hs.atSampling hs.noCancel, State.tick_of_levelsHold hlevels,
    State.byteStep_eq (s := s.afterBytes k w l) hs.atSampling, if_congr hmatch rfl rfl, State.afterBytes,
    State.afterBytes, xsIter_succ]
  rfl

/-- As long as the pattern has not stood in the stream the block goes from sampling point to sampling point. -/
theorem runSteps_withoutMatch {s : State} (hs : SetupReady s) (k : Nat)
    (hno : ∀ m ≤ k, ¬matchesAfter s.pattern s.xs m) :
    ∃ w l, (s.afterBytes k w l).window = s.streamWindow k ∧ runSteps k s = .next (s.afterBytes k w l) := by
  induction k with
  | zero =>
    refine ⟨s.win, s.winLen, ?_, rfl⟩
    rw [State.window, State.afterBytes, hs.windowEmpty]
    exact List.drop_nil.symm
  | succ k ih =>
    obtain ⟨w, l, hw, hrun⟩ := ih fun m hm => hno m (Nat.le_succ_of_le hm)
    obtain ⟨w', l', hw', hstep⟩ := step_afterBytes hs hw
    have hne : s.streamWindow (k + 1) ≠ s.pattern := fun h =>
      hno (k + 1) (le_refl _) ((matchesAfter_iff_streamWindow s _).mpr h)
    rw [if_neg hne, ← hs.atSampling] at hstep
    exact ⟨w', l', hw', (runSteps_add 1 hrun).trans (runSteps_one hstep)⟩

/-- Settles O32: no match at the steps before the last, a match at the last. -/
theorem setupStopsAtTheFirstMatch : Obligations.SetupStopsAtTheFirstMatch := by
  rintro s n hs ⟨hn, hfirst⟩
  have hpos : 0 < n := by
    have hlen := hn.1
    rw [s.pattern_length] at hlen
    exact Nat.lt_of_lt_of_le hs.patternLoaded hlen
  obtain ⟨k, rfl⟩ := Nat.exists_eq_add_of_le' hpos
  obtain ⟨w, l, hw, hrun⟩ := runSteps_withoutMatch hs k fun m hm => hfirst m (Nat.lt_succ_of_le hm)
  obtain ⟨w', l', hw', hstep⟩ := step_afterBytes hs hw
  have hmatch : s.streamWindow (k + 1) = s.pattern := (matchesAfter_iff_streamWindow s _).mp hn
  rw [if_pos hmatch] at hstep
  have hpattern : (s.afterBytes (k + 1) w' l').window = s.pattern := hw'.trans hmatch
  refine ⟨w', l', (runSteps_add 1 hrun).trans (runSteps_one hstep), Fin.ext ?_, hpattern⟩
  rw [← s.pattern_length, ← hpattern, State.window_length]
  rfl

/-! The generator at 0 (R173). -/

theorem xsIter_zero_state (k : Nat) : xsIter k 0#64 = 0#64 := by
  induction k with
  | zero => rfl
  | succ k ih => rw [xsIter_succ, ih, (xsStep_eq_zero_iff 0#64).mpr (.inl rfl)]

theorem xsBytes_zero_state {k : Nat} {b : Byte} (h : b ∈ xsBytes k 0#64) : b = 0#8 := by
  obtain ⟨i, hi, rfl⟩ := List.mem_iff_getElem.mp h
  rw [xsBytes_getElem, xsIter_zero_state]
  rfl

/-- Settles O33: the stream from 0 holds zero bytes alone, so it never shows the pattern. -/
theorem setupNeverEndsFromZeroState : Obligations.SetupNeverEndsFromZeroState := by
  rintro s n hs hx ⟨b, hb, hne⟩
  have hno : ∀ m ≤ n, ¬matchesAfter s.pattern s.xs m := by
    rintro m - ⟨-, h⟩
    rw [← h, hx] at hb
    exact hne (xsBytes_zero_state (List.mem_of_mem_drop hb))
  obtain ⟨w, l, -, hrun⟩ := runSteps_withoutMatch hs n hno
  refine ⟨_, hrun, hs.atSampling, ?_, rfl, rfl⟩
  rw [State.afterBytes, hx]
  exact xsIter_zero_state n

/-! The outer loop (R168). -/

/-- The end of an outer iteration: the reseed, the empty window and the counter; the last one ends the command. -/
def State.afterIteration (s : State) (n : Nat) : State :=
  { s with xs := (reseedWord (xsIter n s.xs)).setWidth 64, win := Vector.replicate 31 0#8, winLen := 0,
           iterRem := s.iterRem - 1#32 }

/-- One outer iteration: the byte steps to the first match, and the step of the reseed. -/
theorem runSteps_iteration {s : State} (hs : SetupReady s) {n : Nat} (hn : firstMatch s.pattern s.xs n) :
    runSteps (n + 1) s =
      .next (if s.iterRem = 1#32 then { s.afterIteration n with phase := .idle }.answered .ok 0#32
             else s.afterIteration n) := by
  obtain ⟨w, l, hrun, -⟩ := setupStopsAtTheFirstMatch s n hs hn
  have hstep := step_of_drawing (s := { s with xs := xsIter n s.xs, win := w, winLen := l, phase := .drawing })
    hs.noReset rfl
  rw [State.tick_of_levelsHold (by rw [State.reseedAndNext_script]; exact hs.levelsHold),
    State.reseedAndNext_eq, ← hs.atSampling] at hstep
  exact (runSteps_add 1 hrun).trans (runSteps_one hstep)

/-- After an iteration that is not the last the next one is ready. -/
theorem SetupReady.afterIteration {s : State} (hs : SetupReady s) (n : Nat) : SetupReady (s.afterIteration n) where
  atSampling := hs.atSampling
  noReset := hs.noReset
  noCancel := hs.noCancel
  levelsHold := hs.levelsHold
  windowEmpty := rfl
  patternLoaded := hs.patternLoaded

/-- Settles O34: by induction on the outer iterations. -/
theorem setupRunsTheDelayProtocol : Obligations.SetupRunsTheDelayProtocol := by
  intro s ns
  induction ns generalizing s with
  | nil => exact fun _ _ hne => absurd rfl hne
  | cons n ns ih =>
    rintro y hs - hlen ⟨hn, htrace⟩
    have hiter := runSteps_iteration hs hn
    rw [List.length_cons] at hlen
    have hsteps : (n :: ns).sum + (n :: ns).length = n + 1 + (ns.sum + ns.length) := by
      rw [List.sum_cons, List.length_cons]
      omega
    rw [hsteps]
    by_cases hlast : ns = []
    · subst hlast
      have hone : s.iterRem = 1#32 := by
        rw [List.length_nil] at hlen
        bv_omega
      rw [if_pos hone, State.afterIteration, hone] at hiter
      cases htrace
      exact hiter
    · have hpos : 0 < ns.length := List.length_pos_iff.mpr hlast
      have hmore : s.iterRem ≠ 1#32 := by bv_omega
      have hcount : ns.length = (s.afterIteration n).iterRem.toNat := by
        change ns.length = (s.iterRem - 1#32).toNat
        bv_omega
      rw [if_neg hmore] at hiter
      exact (runSteps_add _ hiter).trans (ih _ y (hs.afterIteration n) hlast hcount htrace)

end Sys2Proof.Machine
end

section
/-! PROOFS. The host procedure PRBG.NEW: its commands run to the end and leave the generator seeded, the pattern loaded. -/

namespace Sys2Proof.Machine

theorem runAll_append {is : List Instr} {s t : State} (js : List Instr) (h : runAll is s = .next t) :
    runAll (is ++ js) s = runAll js t := by
  induction is generalizing s with
  | nil =>
    cases h
    rfl
  | cons i is ih =>
    obtain ⟨u, hu⟩ := exec_next i s
    rw [runAll_cons _ hu] at h
    rw [List.cons_append, runAll_cons _ hu, ih h]

/-- BUF.WRITE leaves the range written, with some response on the port (30_encoding.md R103). -/
theorem runAll_bufWrite (bytes : List Byte) (off : Off) (s : State) (hd : s.discard = false)
    (hfits : off.toNat + bytes.length ≤ 1024) :
    ∃ r, runAll (bufWrite off bytes) s = .next ({ s with response := r }.writeRange off bytes) := by
  induction bytes generalizing off s with
  | nil => exact ⟨s.response, rfl⟩
  | cons b bytes ih =>
    rw [List.length_cons] at hfits
    obtain ⟨r, hr⟩ := ih (off + 1#10) ({ s with buf := memWrite s.buf off.toNat b }.answered .ok 0#32) hd (by bv_omega)
    refine ⟨r, (runAll_cons _ (exec_bufWr hd)).trans (hr.trans ?_)⟩
    simp only [State.writeRange]
    rw [memWriteRange_next _ _ _ (by omega)]
    rfl

/-- A range just written reads back. -/
theorem State.readRange_writeRange (s : State) (off len : Off) {bytes : List Byte} (h : len.toNat = bytes.length) :
    (s.writeRange off bytes).readRange off len = bytes := by
  rw [State.readRange, h]
  exact memReadRange_memWriteRange s.buf off.toNat bytes

theorem State.loadPattern_patLen_val (s : State) {bytes : List Byte} (h : bytes.length ≤ 31) :
    (s.loadPattern bytes).patLen.val = bytes.length :=
  Nat.mod_eq_of_lt (Nat.lt_succ_of_le h)

/-- The loaded pattern, read as a list, is the bytes it was loaded from. -/
theorem State.loadPattern_pattern (s : State) {bytes : List Byte} (h : bytes.length ≤ 31) :
    (s.loadPattern bytes).pattern = bytes := by
  refine List.ext_getElem (by rw [State.pattern_length, s.loadPattern_patLen_val h]) fun i _ hi => ?_
  simp only [State.pattern, List.getElem_take, Vector.getElem_toList, State.loadPattern_pat]
  rw [entriesOf_getElem _ _ (Nat.lt_of_lt_of_le hi h), List.getD_eq_getElem _ _ hi]

/-- The slice never runs past the digest (42_prbg_setup.md R164). -/
theorem confusionPattern_length {digest : List Byte} {len : Nat} (hdigest : digest.length = 32) (hlen : len ≤ 31) :
    (confusionPattern digest len).length = len := by
  have hindex : patternIndex digest len < 32 - len := Nat.mod_lt _ (by omega)
  rw [confusionPattern, List.length_take, List.length_drop, hdigest]
  omega

/-- BUF.WRITE of at least one byte, then XS.RESEED of the same range: the bytes seed the generator (R161). -/
theorem runAll_writeAndReseed {key : List Byte} {a len : Off} {s : State} (hd : s.discard = false)
    (hlen : len.toNat = key.length) (hpos : len ≠ 0#10) (hfits : a.toNat + key.length ≤ 1024) :
    runAll (bufWrite a key ++ [Instr.xsReseed a len]) s =
      .next ({ s.writeRange a key with xs := seedOf key, seeded := true }.answered .ok 0#32) := by
  obtain ⟨r, hr⟩ := runAll_bufWrite key a s hd hfits
  have hseed := exec_xsReseed (off := a) (s := { s with response := r }.writeRange a key) hd hpos (by rwa [hlen])
  rw [State.readRange_writeRange _ a len hlen] at hseed
  rw [runAll_append _ hr, runAll_cons _ hseed]
  rfl

/-- BUF.WRITE of 1 to 31 bytes, then SW.LOADPAT of the same range: the bytes are the pattern (R163). -/
theorem runAll_writeAndLoadpat {bytes : List Byte} {b len : Off} {s : State} (hd : s.discard = false)
    (hlen : len.toNat = bytes.length) (hpos : 1 ≤ bytes.length) (hmax : bytes.length ≤ 31)
    (hfits : b.toNat + bytes.length ≤ 1024) :
    runAll (bufWrite b bytes ++ [Instr.swLoadpat b len]) s =
      .next (((s.writeRange b bytes).loadPattern bytes).answered .ok 0#32) := by
  obtain ⟨r, hr⟩ := runAll_bufWrite bytes b s hd hfits
  have hload := exec_swLoadpat (off := b) (s := { s with response := r }.writeRange b bytes) hd (hlen ▸ hpos)
    (hlen ▸ hmax) (by rwa [hlen])
  rw [State.readRange_writeRange _ b len hlen] at hload
  rw [runAll_append _ hr, runAll_cons _ hload]
  rfl

/-- PRBG.NEW sends its commands only where the length is 1 to 31 (R162, R166). -/
theorem prbgNew_eq_some {key digest : List Byte} {len iterations : Nat} {a b : Off} {cmds : List Instr}
    (h : prbgNew key digest len iterations a b = some cmds) :
    1 ≤ len ∧ len ≤ 31 ∧
      cmds = (bufWrite a key ++ [Instr.xsReseed a 64#10]) ++
        (bufWrite b (confusionPattern digest len) ++ [Instr.swLoadpat b (BitVec.ofNat 10 len)]) := by
  unfold prbgNew at h
  split at h
  · cases h
  · next hchecks =>
    simp only [not_or, Nat.not_lt, Config.maxPattern] at hchecks
    obtain ⟨hpos, hmax, -⟩ := hchecks
    cases h
    exact ⟨hpos, hmax, by rw [List.append_assoc, List.append_assoc]⟩

/-- Settles O60: the two halves of the procedure, one after the other. -/
theorem prbgNewPreparesTheBlock : Obligations.PrbgNewPreparesTheBlock := by
  intro key digest len iterations a b cmds s hkey hdigest hcmds ha hb hd
  obtain ⟨hpos, hmax, rfl⟩ := prbgNew_eq_some hcmds
  have hslice : (confusionPattern digest len).length = len := confusionPattern_length hdigest hmax
  have hlen : (BitVec.ofNat 10 len).toNat = (confusionPattern digest len).length := by
    rw [hslice, BitVec.toNat_ofNat]
    exact Nat.mod_eq_of_lt (by omega)
  have hseed := runAll_writeAndReseed (len := 64#10) hd hkey.symm (by decide) (by rwa [hkey])
  refine ⟨_, (runAll_append _ hseed).trans (runAll_writeAndLoadpat hd hlen ?_ ?_ ?_), rfl, rfl, ?_, rfl,
    seedOf_toNat key, ?_⟩
  · rwa [hslice]
  · rwa [hslice]
  · rwa [hslice]
  · exact (State.loadPattern_patLen_val _ (by rwa [hslice])).trans hslice
  · exact State.loadPattern_pattern _ (by rwa [hslice])

end Sys2Proof.Machine
end

section
/-! PROOFS. The big-integer engine: the loops of the rules compute the functions of the number theory that they are
named after, and the five commands answer with them. -/

namespace Sys2Proof.Machine

/-! Digits (00_scope.md R17). -/

theorem tobe_getD {v n i : Nat} (h : i < n) : (tobe v n).getD i 0#8 = BitVec.ofNat 8 (v / 256 ^ (n - 1 - i) % 256) := by
  have hi : i < (tobe v n).length := by rwa [tobe_length]
  rw [List.getD_eq_getElem _ _ hi, tobe_getElem]
  exact BitVec.eq_of_toNat_eq (by simp)

/-! Euclid's loop (43_bignum.md R195). -/

/-- A turn replaces the pair by one with the same greatest common divisor. -/
theorem gcdLoop_eq_gcd {f a b : Nat} (hfuel : b ≤ f) : gcdLoop f a b = Nat.gcd a b := by
  induction f generalizing a b with
  | zero => rw [Nat.le_zero.mp hfuel, Nat.gcd_zero_right, gcdLoop]
  | succ f ih =>
    rw [gcdLoop]
    split
    · next hb => rw [hb, Nat.gcd_zero_right]
    · next hb =>
      have hlower : a % b < b := Nat.mod_lt a (Nat.pos_of_ne_zero hb)
      rw [ih (by omega), Nat.gcd_comm a b, Nat.gcd_rec b a, Nat.gcd_comm]

theorem euclidGcd_eq_gcd (a b : Nat) : euclidGcd a b = Nat.gcd a b := gcdLoop_eq_gcd (Nat.le_refl b)

/-! Binary exponentiation (43_bignum.md R198). -/

theorem pow_eq_sq_pow_half (b e : Nat) : b ^ e = (if e % 2 = 1 then b else 1) * (b * b) ^ (e / 2) := by
  conv_lhs => rw [← Nat.mod_add_div e 2, pow_add, pow_mul, pow_two]
  obtain h | h := Nat.mod_two_eq_zero_or_one e
  · simp [h]
  · simp [h]

/-- A turn keeps `r * b ^ e` modulo `m`. -/
theorem modexpLoop_eq_pow_mod {f r b e m : Nat} (hfuel : e ≤ f) (hr : r < m) :
    modexpLoop f r b e m = r * b ^ e % m := by
  induction f generalizing r b e with
  | zero => rw [Nat.le_zero.mp hfuel, pow_zero, Nat.mul_one, Nat.mod_eq_of_lt hr, modexpLoop]
  | succ f ih =>
    rw [modexpLoop]
    split
    · next he => rw [he, pow_zero, Nat.mul_one, Nat.mod_eq_of_lt hr]
    · next he =>
      have hm : 0 < m := Nat.zero_lt_of_lt hr
      have hturn : (if e % 2 = 1 then r * b % m else r) ≡ r * (if e % 2 = 1 then b else 1) [MOD m] := by
        split
        · exact Nat.mod_modEq _ _
        · rw [Nat.mul_one]
      have hnext : (if e % 2 = 1 then r * b % m else r) < m := by
        split
        · exact Nat.mod_lt _ hm
        · exact hr
      rw [ih (by omega) hnext, pow_eq_sq_pow_half b e, ← Nat.mul_assoc]
      exact hturn.mul ((Nat.mod_modEq _ _).pow _)

theorem modexp_eq_pow_mod {m : Nat} (hm : 0 < m) (b e : Nat) : modexp b e m = b ^ e % m := by
  rw [modexp, modexpLoop_eq_pow_mod (Nat.le_refl e) (Nat.mod_lt 1 hm), ← Nat.one_mul (b ^ e)]
  exact (Nat.mod_modEq 1 m).mul ((Nat.mod_modEq b m).pow e)

/-! The extended algorithm (43_bignum.md R201): the remainders are those of Euclid's loop, and each coefficient times
`a` stays congruent to its remainder. -/

theorem modinvLoop_succ (f r0 r1 : Nat) (t0 t1 : Int) :
    modinvLoop (f + 1) r0 r1 t0 t1 =
      if r1 = 0 then (r0, t0) else modinvLoop f r1 (r0 % r1) t1 (t0 - (r0 / r1 : Nat) * t1) := by
  rw [modinvLoop, ← Nat.mod_eq_sub_div_mul]

theorem modinvLoop_fst_eq_gcdLoop (f r0 r1 : Nat) (t0 t1 : Int) : (modinvLoop f r0 r1 t0 t1).1 = gcdLoop f r0 r1 := by
  induction f generalizing r0 r1 t0 t1 with
  | zero => rfl
  | succ f ih =>
    rw [modinvLoop_succ, gcdLoop]
    split
    · rfl
    · exact ih _ _ _ _

theorem modinvLoop_congr {a m : Int} {r0 r1 : Nat} {t0 t1 : Int} (f : Nat) (h0 : a * t0 ≡ r0 [ZMOD m])
    (h1 : a * t1 ≡ r1 [ZMOD m]) :
    a * (modinvLoop f r0 r1 t0 t1).2 ≡ (modinvLoop f r0 r1 t0 t1).1 [ZMOD m] := by
  induction f generalizing r0 r1 t0 t1 with
  | zero => exact h0
  | succ f ih =>
    rw [modinvLoop_succ]
    split
    · exact h0
    · refine ih h1 ?_
      have hrem : ((r0 % r1 : Nat) : Int) = r0 - (r0 / r1 : Nat) * r1 := by
        rw [Int.natCast_mod, Int.emod_def, Int.natCast_ediv, Int.mul_comm]
      rw [hrem, mul_sub, mul_left_comm]
      exact h0.sub (h1.mul_left _)

theorem modinv_eq_none {a m : Nat} (h : Nat.gcd (a % m) m ≠ 1) : modinv a m = none := by
  rw [modinv, modinvLoop_fst_eq_gcdLoop, gcdLoop_eq_gcd (Nat.le_refl _), Nat.gcd_comm]
  exact if_neg h

theorem modinv_eq_some {a m : Nat} (hm : 0 < m) (h : Nat.gcd (a % m) m = 1) :
    ∃ x, modinv a m = some x ∧ a * x ≡ 1 [MOD m] := by
  have hgcd : (modinvLoop (a % m) m (a % m) 0 1).1 = 1 := by
    rw [modinvLoop_fst_eq_gcdLoop, gcdLoop_eq_gcd (Nat.le_refl _), Nat.gcd_comm, h]
  refine ⟨_, if_pos hgcd, ?_⟩
  have hinv : (a : Int) * (modinvLoop (a % m) m (a % m) 0 1).2 ≡ 1 [ZMOD m] := by
    have h0 : (a : Int) * 0 ≡ (m : Nat) [ZMOD m] := by
      rw [mul_zero]
      exact (Int.modEq_zero_iff_dvd.mpr dvd_rfl).symm
    have h1 : (a : Int) * 1 ≡ (a % m : Nat) [ZMOD m] := by
      rw [mul_one, Int.natCast_mod]
      exact (Int.mod_modEq _ _).symm
    simpa only [hgcd, Nat.cast_one] using modinvLoop_congr (a % m) h0 h1
  rw [← Int.natCast_modEq_iff, Nat.cast_mul, Int.toNat_of_nonneg (Int.emod_nonneg _ (by omega)), Nat.cast_one]
  exact ((Int.mod_modEq _ _).mul_left _).trans hinv

/-! What the commands answer when their checks pass. -/

/-- BN.LOAD that passes its checks (43_bignum.md R187). -/
theorem exec_bnLoad {gd : Reg} {off len : Off} {s : State} (hd : s.discard = false)
    (hfits : off.toNat + len.toNat ≤ 1024) (hv : be (s.readRange off len) < Config.regLimit) :
    exec (.bnLoad gd off len) s = .next ((s.setReg gd (be (s.readRange off len))).answered .ok 0#32) := by
  change execBnLoad gd off len s = _
  rw [execBnLoad, if_neg (by simp [rangeFits_iff.mpr hfits])]
  exact State.command_passed hd (decide_eq_true hv)

/-- BN.STORE that passes its checks (43_bignum.md R189). -/
theorem exec_bnStore {gs : Reg} {off len : Off} {s : State} (hd : s.discard = false)
    (hfits : off.toNat + len.toNat ≤ 1024) (hv : s.reg gs < 256 ^ len.toNat) :
    exec (.bnStore gs off len) s = .next ((s.writeRange off (tobe (s.reg gs) len.toNat)).answered .ok 0#32) := by
  change execBnStore gs off len s = _
  rw [execBnStore, if_neg (by simp [rangeFits_iff.mpr hfits]), if_neg (Nat.not_le.mpr hv)]
  exact State.command_ok hd _ _

/-- BN.GCD: there is no check of its own (43_bignum.md R196). -/
theorem exec_bnGcd {gd gs1 gs2 : Reg} {s : State} (hd : s.discard = false) :
    exec (.bnGcd gd gs1 gs2) s = .next ((s.setReg gd (euclidGcd (s.reg gs1) (s.reg gs2))).answered .ok 0#32) :=
  State.command_ok hd _ _

/-- BN.MODEXP that passes its check (43_bignum.md R199). -/
theorem exec_bnModexp {gd gs1 gs2 gs3 : Reg} {s : State} (hd : s.discard = false) (hm : s.reg gs3 ≠ 0) :
    exec (.bnModexp gd gs1 gs2 gs3) s =
      .next ((s.setReg gd (modexp (s.reg gs1) (s.reg gs2) (s.reg gs3))).answered .ok 0#32) := by
  change execBnModexp gd gs1 gs2 gs3 s = _
  rw [execBnModexp, if_neg hm]
  exact State.command_ok hd _ _

/-- BN.MODINV where the inverse exists (43_bignum.md R202). -/
theorem exec_bnModinv_some {gd gs1 gs2 : Reg} {s : State} {x : Nat} (hd : s.discard = false) (hm : s.reg gs2 ≠ 0)
    (hx : modinv (s.reg gs1) (s.reg gs2) = some x) :
    exec (.bnModinv gd gs1 gs2) s = .next ((s.setReg gd x).answered .ok 0#32) := by
  change execBnModinv gd gs1 gs2 s = _
  rw [execBnModinv, if_neg hm, hx]
  exact State.command_ok hd _ _

/-- BN.MODINV where there is no inverse (43_bignum.md R202). -/
theorem exec_bnModinv_none {gd gs1 gs2 : Reg} {s : State} (hd : s.discard = false) (hm : s.reg gs2 ≠ 0)
    (hx : modinv (s.reg gs1) (s.reg gs2) = none) :
    exec (.bnModinv gd gs1 gs2) s = .next (s.answered .eDomain 0#32) := by
  change execBnModinv gd gs1 gs2 s = _
  rw [execBnModinv, if_neg hm, hx]
  exact State.command_error hd _

/-- Settles O35: the sum of 00_scope.md R17 is the value that the command reads. -/
theorem loadReadsBigEndianValue : Obligations.LoadReadsBigEndianValue := by
  intro gd off len s hd hfits hv
  rw [State.rangeValue_eq_be] at hv ⊢
  exact exec_bnLoad hd hfits (by rwa [Config.regLimit, Config.width])

/-- Settles O36: a read of the stored range finds the register's digits. -/
theorem storeWritesBigEndianBytes : Obligations.StoreWritesBigEndianBytes := by
  intro gs off len s hd hfits hv
  refine ⟨_, exec_bnStore hd hfits hv, fun a => ?_⟩
  rw [memRead_memWriteRange, tobe_length]
  split
  · next ha =>
    rw [tobe_getD (by omega), show len.toNat - 1 - (a - off.toNat) = off.toNat + len.toNat - 1 - a by omega]
  · rfl

/-- Settles O37, by the invariant of Euclid's loop. -/
theorem gcdIsTheGreatestCommonDivisor : Obligations.GcdIsTheGreatestCommonDivisor := by
  intro gd gs1 gs2 s hd
  rw [exec_bnGcd hd, euclidGcd_eq_gcd]
  rfl

/-- Settles O38, by the invariant of the exponentiation. -/
theorem modexpIsTheModularPower : Obligations.ModexpIsTheModularPower := by
  intro gd gs1 gs2 gs3 s hd hm
  rw [exec_bnModexp hd hm, modexp_eq_pow_mod (Nat.pos_of_ne_zero hm)]
  rfl

/-- Settles O39: the last remainder is the gcd, and its coefficient is the inverse where that is 1. -/
theorem modinvIsTheModularInverse : Obligations.ModinvIsTheModularInverse := by
  intro gd gs1 gs2 s hd hm
  have hpos : 0 < s.reg gs2 := Nat.pos_of_ne_zero hm
  refine ⟨fun hone => ?_, fun hnot => exec_bnModinv_none hd hm (modinv_eq_none hnot)⟩
  obtain ⟨x, hx, hinv⟩ := modinv_eq_some hpos hone
  exact ⟨x, modinv_lt hpos hx, hinv, exec_bnModinv_some hd hm hx⟩

end Sys2Proof.Machine
end

section
/-! PROOFS. The prime engine: the sieve scan, the strong test and why every prime passes it, and the two searches. -/

namespace Sys2Proof.Machine

theorem smallPrimes_length : smallPrimes.length = 168 := smallPrimeTableIsComplete.2

/-- The table is ascending (10_state.md R36). -/
theorem smallPrimes_pairwise_lt : smallPrimes.Pairwise (· < ·) :=
  smallPrimeTableIsComplete.1 ▸ List.pairwise_lt_range.filter _

/-! What the commands answer when their checks pass. -/

/-- PR.SIEVE: there is no check of its own (44_prime.md R217). -/
theorem exec_prSieve {gs1 : Reg} {k : Byte} {s : State} (hd : s.discard = false) :
    exec (.prSieve gs1 k) s = .next (s.answered .ok (BitVec.ofNat 32 (sieve (s.reg gs1) k.toNat))) :=
  State.command_ok hd _ _

/-- PR.PPTEST: there is no check of its own (44_prime.md R224). -/
theorem exec_prPptest {gs1 : Reg} {s : State} (hd : s.discard = false) :
    exec (.prPptest gs1) s = .next (s.answered .ok (if ppt (s.reg gs1) = true then 1#32 else 0#32)) :=
  State.command_ok hd _ _

/-- PR.NEXTPP where the next probable prime fits a register (44_prime.md R227). -/
theorem exec_prNextpp {gd gs1 : Reg} {s : State} {v : Nat} (hd : s.discard = false)
    (hv : nextpp (s.reg gs1) = some v) :
    exec (.prNextpp gd gs1) s = .next ((s.setReg gd v).answered .ok 0#32) := by
  change execPrNextpp gd gs1 s = _
  rw [execPrNextpp, hv]
  exact State.command_ok hd _ _

/-- PR.SEARCH where no value of the search overflows (44_prime.md R230). -/
theorem exec_prSearch {gd gs1 : Reg} {s : State} {r : Nat} (hd : s.discard = false)
    (hr : search (s.reg gs1) = some r) :
    exec (.prSearch gd gs1) s = .next ((s.setReg gd r).answered .ok 0#32) := by
  change execPrSearch gd gs1 s = _
  rw [execPrSearch, hr]
  exact State.command_ok hd _ _

/-! The sieve (44_prime.md R216). -/

/-- From index `k` on the table is its entries after the first `k`. -/
theorem smallPrimes_getD {k i : Nat} (hk : k ≤ i) (hi : i - k < (smallPrimes.drop k).length) :
    smallPrimes.getD i 1 = (smallPrimes.drop k)[i - k] := by
  have hlt : i < smallPrimes.length := by
    rw [List.length_drop] at hi
    omega
  rw [List.getD_eq_getElem _ _ hlt, List.getElem_drop]
  congr 1
  omega

theorem sieve_spec (c : Nat) {k : Nat} (hk : k ≤ 168) :
    k ≤ sieve c k ∧ sieve c k ≤ 168 ∧
      (∀ i, k ≤ i → i < sieve c k → c % smallPrimes.getD i 1 ≠ 0) ∧
      (sieve c k < 168 → c % smallPrimes.getD (sieve c k) 1 = 0) := by
  have hlength : (smallPrimes.drop k).length = 168 - k := by rw [List.length_drop, smallPrimes_length]
  obtain ⟨hfrom, hupto, hbefore, hat⟩ := sieveFrom_spec c (smallPrimes.drop k) k
  change k ≤ sieve c k at hfrom
  change sieve c k ≤ k + _ at hupto
  refine ⟨hfrom, by omega, fun i hki hi => ?_, fun hlt => ?_⟩
  · have hentry : i - k < (smallPrimes.drop k).length := by omega
    rw [smallPrimes_getD hki hentry]
    refine hbefore _ hentry ?_
    rwa [Nat.add_sub_cancel' hki]
  · have hentry : sieve c k - k < (smallPrimes.drop k).length := by omega
    rw [smallPrimes_getD hfrom hentry]
    exact hat hentry

/-- Settles O41: the index is the one that the scan of the table stops at. -/
theorem sieveAndTestAnswers : Obligations.SieveAndTestAnswers := by
  intro gs1 k s hd hk
  obtain ⟨hfrom, hupto, hbefore, hat⟩ := sieve_spec (s.reg gs1) hk
  exact ⟨⟨_, hfrom, hupto, exec_prSieve hd, hbefore, hat⟩, exec_prPptest hd⟩

/-! The strong test (44_prime.md R222). -/

/-- The halving loop takes the factors of 2 out one by one. -/
theorem oddPartLoop_two_pow_mul {f e d : Nat} (hodd : d % 2 = 1) (hfuel : e ≤ f) (s : Nat) :
    oddPartLoop f (2 ^ e * d) s = (d, s + e) := by
  induction e generalizing f s with
  | zero =>
    cases f with
    | zero => simp [oddPartLoop]
    | succ f => simp [oddPartLoop, hodd]
  | succ e ih =>
    obtain ⟨f, rfl⟩ := Nat.exists_eq_add_of_le' (Nat.lt_of_lt_of_le e.succ_pos hfuel)
    have htwice : 2 ^ (e + 1) * d = 2 * (2 ^ e * d) := by rw [pow_succ']; ring
    rw [oddPartLoop, htwice, if_pos (Nat.mul_mod_right _ _), Nat.mul_div_cancel_left _ (by decide), ih (by omega)]
    congr 1
    omega

theorem oddPart_eq {n d e : Nat} (hn : n - 1 = 2 ^ e * d) (hodd : d % 2 = 1) : oddPart n = (d, e) := by
  have hfuel : e ≤ n - 1 := calc
    e ≤ 2 ^ e := Nat.lt_two_pow_self.le
    _ ≤ 2 ^ e * d := Nat.le_mul_of_pos_right _ (by omega)
    _ = n - 1 := hn.symm
  rw [oddPart]
  nth_rw 2 [hn]
  rw [oddPartLoop_two_pow_mul hodd hfuel, Nat.zero_add]

/-- The squaring loop looks for -1 among the squares of its start, the squares of those, and so on. -/
theorem squareLoop_iff (n k x : Nat) :
    squareLoop n k x = true ↔ ∃ r, r < k ∧ x ^ 2 ^ (r + 1) % n = n - 1 := by
  induction k generalizing x with
  | zero => simp [squareLoop]
  | succ k ih =>
    have hsquare (r : Nat) : (x * x % n) ^ 2 ^ (r + 1) % n = x ^ 2 ^ (r + 1 + 1) % n := by
      rw [← Nat.pow_mod, ← pow_two, ← pow_mul, ← pow_succ']
    rw [squareLoop, Nat.exists_lt_succ_left, zero_add, pow_one, pow_two]
    split
    · next h => simp [h]
    · next h => simp only [ih, hsquare, h, false_or]

/-- A round of the test is the strong test of its base; `e` is not 0 because `n` is odd. -/
theorem mrRound_iff_strongBase {n e : Nat} (hn : 0 < n) (he : e ≠ 0) (d w : Nat) :
    mrRound n d e w = true ↔ strongBase n d e w := by
  obtain ⟨k, rfl⟩ := Nat.exists_eq_succ_of_ne_zero he
  have hpower (r : Nat) : ((w % n) ^ d % n) ^ 2 ^ r % n = (w % n) ^ (2 ^ r * d) % n := by
    rw [← Nat.pow_mod, ← pow_mul, Nat.mul_comm]
  have hloop : squareLoop n (k + 1 - 1) ((w % n) ^ d % n) = true ↔
      ∃ r, r < k ∧ (w % n) ^ (2 ^ (r + 1) * d) % n = n - 1 := by
    simp only [squareLoop_iff, hpower, Nat.add_sub_cancel]
  rw [mrRound, strongBase, Nat.succ_eq_add_one, Nat.exists_lt_succ_left, pow_zero, Nat.one_mul,
    modexp_eq_pow_mod hn, ← hloop]
  by_cases hbase : w % n ≤ 1 ∨ w % n = n - 1
  · rw [if_pos hbase, ← or_assoc]
    exact iff_of_true rfl (.inl hbase)
  · rw [if_neg hbase, ← or_assoc, or_iff_right hbase, ← or_assoc]
    by_cases hpow : (w % n) ^ d % n = 1 ∨ (w % n) ^ d % n = n - 1
    · exact iff_of_true (if_pos hpow) (.inl hpow)
    · rw [or_iff_right hpow]
      exact iff_of_eq (congrArg (· = true) (if_neg hpow))

theorem ppt_of_lt_two {n : Nat} (h : n < 2) : ppt n = false := if_pos h

theorem ppt_of_even {n : Nat} (h : 4 ≤ n) (heven : n % 2 = 0) : ppt n = false := by
  rw [ppt, if_neg (by omega), if_neg (by omega), if_pos heven]

/-- The witnesses are the first 50 entries of the table (44_prime.md R221). -/
theorem take_witnesses : Config.witnesses.take Config.mrRounds = smallPrimes.take 50 := by decide

theorem ppt_iff_of_odd {n d e : Nat} (h : 4 ≤ n) (hodd : n % 2 = 1) (hn : n - 1 = 2 ^ e * d) (hd : d % 2 = 1) :
    ppt n = true ↔ ∀ w, w ∈ smallPrimes.take 50 → strongBase n d e w := by
  have he : e ≠ 0 := by
    rintro rfl
    rw [pow_zero, Nat.one_mul] at hn
    omega
  have hround := mrRound_iff_strongBase (show 0 < n by omega) he d
  rw [ppt, if_neg (by omega), if_neg (by omega), if_neg (by omega), oddPart_eq hn hd, take_witnesses, List.all_eq_true]
  exact forall₂_congr fun w _ => hround w

/-- Settles O42: round by round, with the loops read as exact powers. -/
theorem pptIsTheStrongTest : Obligations.PptIsTheStrongTest :=
  ⟨fun _ => ppt_of_lt_two, rfl, rfl, fun _ => ppt_of_even, fun _ _ _ => ppt_iff_of_odd⟩

/-! Every prime passes (44_prime.md R223 a): modulo a prime 1 has no square roots but 1 and -1. -/

theorem eq_one_or_exists_pow_eq_neg_one {R : Type} [CommRing R] [IsDomain R] {x : R} {e : Nat} (h : x ^ 2 ^ e = 1) :
    x = 1 ∨ ∃ r, r < e ∧ x ^ 2 ^ r = -1 := by
  induction e with
  | zero => exact .inl (by rwa [pow_zero, pow_one] at h)
  | succ e ih =>
    rw [pow_succ, pow_mul, pow_two, mul_self_eq_one_iff] at h
    obtain h | h := h
    · exact (ih h).imp_right fun ⟨r, hr, hx⟩ => ⟨r, Nat.lt_succ_of_lt hr, hx⟩
    · exact .inr ⟨e, Nat.lt_succ_self e, h⟩

/-- A prime passes the strong test for every base. -/
theorem strongBase_of_prime {n d e : Nat} (hp : n.Prime) (hn : n - 1 = 2 ^ e * d) (w : Nat) : strongBase n d e w := by
  have : Fact n.Prime := ⟨hp⟩
  by_cases hw : (w : ZMod n) = 0
  · have hzero : w % n = 0 := Nat.mod_eq_zero_of_dvd ((ZMod.natCast_eq_zero_iff w n).mp hw)
    exact .inl (by omega)
  · have hfermat : ((w : ZMod n) ^ d) ^ 2 ^ e = 1 := by
      rw [← pow_mul, Nat.mul_comm, ← hn]
      exact ZMod.pow_card_sub_one_eq_one hw
    obtain hone | ⟨r, hr, hneg⟩ := eq_one_or_exists_pow_eq_neg_one hfermat
    · refine .inr (.inr (.inl ?_))
      have hcast : ((w ^ d : Nat) : ZMod n) = (1 : Nat) := by rwa [Nat.cast_pow, Nat.cast_one]
      rw [← Nat.pow_mod, (ZMod.natCast_eq_natCast_iff' _ _ n).mp hcast, Nat.mod_eq_of_lt hp.one_lt]
    · refine .inr (.inr (.inr ⟨r, hr, ?_⟩))
      have hcast : ((w ^ (2 ^ r * d) : Nat) : ZMod n) = (n - 1 : Nat) := by
        rw [Nat.cast_pow, Nat.mul_comm, pow_mul, hneg, Nat.cast_pred hp.pos, CharP.cast_eq_zero, zero_sub]
      rw [← Nat.pow_mod, (ZMod.natCast_eq_natCast_iff' _ _ n).mp hcast, Nat.mod_eq_of_lt (Nat.sub_one_lt hp.ne_zero)]

/-- Settles O43: 2 and 3 pass by definition, an odd prime above 3 passes the strong test for each base. -/
theorem primesPassTheTest : Obligations.PrimesPassTheTest := by
  intro n hp
  by_cases hsmall : n < 4
  · rw [ppt, if_neg (Nat.not_lt.mpr hp.two_le), if_pos hsmall]
  · have hodd : n % 2 = 1 := hp.eq_two_or_odd.resolve_left (by omega)
    obtain ⟨e, d, hd, hn⟩ := Nat.exists_eq_two_pow_mul_odd (show n - 1 ≠ 0 by omega)
    exact (ppt_iff_of_odd (by omega) hodd hn (Nat.odd_iff.mp hd)).mpr fun w _ => strongBase_of_prime hp hn w

/-! The next probable prime (44_prime.md R226). -/

/-- The limit of a register, as the statements write it (00_scope.md R9). -/
theorem lt_regLimit_iff (v : Nat) : v < Config.regLimit ↔ v < 2 ^ 4096 := by rw [Config.regLimit, Config.width]

/-- Settles O44: the search of a register's values stops at the least one accepted. -/
theorem nextppIsTheLeastProbablePrime : Obligations.NextppIsTheLeastProbablePrime := by
  intro gd gs1 s v hd hleast hv
  exact exec_prNextpp hd ((nextpp_eq_some_iff _ _).mpr ⟨hleast, (lt_regLimit_iff v).mpr hv⟩)

/-! The table scan (44_prime.md R229). -/

theorem searchScan_cons_of_ne {sp c : Nat} (h : c % sp ≠ 0) (ps : List Nat) :
    searchScan (sp :: ps) c = searchScan ps c := by
  rw [searchScan_cons, if_neg h]

theorem searchScan_cons_eq_some_iff {sp c : Nat} (h : c % sp = 0) (ps : List Nat) (r : Nat) :
    searchScan (sp :: ps) c = some r ↔ ∃ c', nextpp (c + 1) = some c' ∧ searchScan ps c' = some r := by
  rw [searchScan_cons, if_pos h]
  cases nextpp (c + 1) with
  | none => simp
  | some c' => simp

theorem search_eq_some_iff (a r : Nat) :
    search a = some r ↔ ∃ c, nextpp a = some c ∧ searchScan smallPrimes c = some r := by
  rw [search]
  cases nextpp a with
  | none => simp
  | some c => simp

/-- The scan has a result exactly where the single pass has it. -/
theorem searchScan_eq_some_iff (ps : List Nat) (c r : Nat) : searchScan ps c = some r ↔ ScanResult ps c r := by
  constructor
  · intro h
    induction ps generalizing c with
    | nil =>
      rw [searchScan_nil, Option.some.injEq] at h
      exact h ▸ .done c
    | cons sp ps ih =>
      by_cases hdiv : c % sp = 0
      · obtain ⟨c', hnext, hscan⟩ := (searchScan_cons_eq_some_iff hdiv ps r).mp h
        obtain ⟨hleast, hlt⟩ := (nextpp_eq_some_iff _ _).mp hnext
        exact .advance sp ps c c' r hdiv hleast hlt (ih c' hscan)
      · exact .keep sp ps c r hdiv (ih c (searchScan_cons_of_ne hdiv ps ▸ h))
  · intro h
    induction h with
    | done c => rfl
    | keep sp ps c r hdiv _ ih => rwa [searchScan_cons_of_ne hdiv]
    | advance sp ps c c' r hdiv hleast hlt _ ih =>
      exact (searchScan_cons_eq_some_iff hdiv ps r).mpr ⟨c', (nextpp_eq_some_iff _ _).mpr ⟨hleast, hlt⟩, ih⟩

/-- The search is the first probable prime, then the single pass of the table. -/
theorem search_eq_some_iff_pass (a r : Nat) :
    search a = some r ↔ ∃ c, leastProbablePrime a c ∧ c < 2 ^ 4096 ∧ ScanResult smallPrimes c r := by
  simp only [search_eq_some_iff, nextpp_eq_some_iff, searchScan_eq_some_iff, lt_regLimit_iff, and_assoc]

/-- Settles O45: the model's scan and the single pass, entry by entry. -/
theorem searchIsTheSinglePass : Obligations.SearchIsTheSinglePass := by
  refine ⟨fun gd gs1 s c r hd hleast hlt hscan => ?_, search_eq_some_iff_pass⟩
  exact exec_prSearch hd ((search_eq_some_iff_pass _ _).mpr ⟨c, hleast, hlt, hscan⟩)

/-! The bounds of a search (44_prime.md R232 d). -/

theorem ScanResult.le {ps : List Nat} {c r : Nat} (h : ScanResult ps c r) : c ≤ r := by
  induction h with
  | done c => exact le_rfl
  | keep _ _ _ _ _ _ ih => exact ih
  | advance _ _ c c' _ _ hleast _ _ ih =>
    obtain ⟨hle, -⟩ := hleast
    omega

theorem ScanResult.ppt_eq_true {ps : List Nat} {c r : Nat} (h : ScanResult ps c r) (hc : ppt c = true) :
    ppt r = true := by
  induction h with
  | done c => exact hc
  | keep _ _ _ _ _ _ ih => exact ih hc
  | advance _ _ _ _ _ _ hleast _ _ ih =>
    obtain ⟨-, hppt, -⟩ := hleast
    exact ih hppt

/-- Every probable prime from `c` on, below `bound`, is an entry of `ps`. -/
def CoversFrom (ps : List Nat) (bound c : Nat) : Prop := ∀ x, c ≤ x → x < bound → ppt x = true → x ∈ ps

/-- An entry below the candidate is not among the probable primes from the candidate on. -/
theorem CoversFrom.tail {sp bound c c' : Nat} {ps : List Nat} (h : CoversFrom (sp :: ps) bound c) (hc : c ≤ c')
    (hsp : sp < c') : CoversFrom ps bound c' := fun x hx hlt hppt =>
  (List.mem_cons.mp (h x (Nat.le_trans hc hx) hlt hppt)).resolve_left (by omega)

/-- While the entries still to be tested cover the probable primes from the candidate on, the pass cannot end below the
bound: a candidate below it is an entry to come, which will divide it. -/
theorem ScanResult.bound_le {ps : List Nat} {bound c r : Nat} (h : ScanResult ps c r) (hc : ppt c = true)
    (hsorted : ps.Pairwise (· < ·)) (hcover : CoversFrom ps bound c) : bound ≤ r := by
  induction h with
  | done c =>
    by_contra hlt
    exact List.not_mem_nil (hcover c le_rfl (Nat.lt_of_not_le hlt) hc)
  | keep sp ps c r hdiv hscan ih =>
    obtain ⟨hsp, hsorted⟩ := List.pairwise_cons.mp hsorted
    by_cases hlt : c < bound
    · have hne : c ≠ sp := fun e => hdiv (by rw [e, Nat.mod_self])
      have hmem : c ∈ ps := (List.mem_cons.mp (hcover c le_rfl hlt hc)).resolve_left hne
      exact ih hc hsorted (hcover.tail le_rfl (hsp c hmem))
    · exact Nat.le_trans (Nat.le_of_not_lt hlt) hscan.le
  | advance sp ps c c' r hdiv hleast _ _ ih =>
    obtain ⟨-, hsorted⟩ := List.pairwise_cons.mp hsorted
    obtain ⟨hle, hppt, -⟩ := hleast
    have hpos : 0 < c := by
      by_contra hzero
      rw [ppt_of_lt_two (by omega)] at hc
      cases hc
    have hsp : sp ≤ c := Nat.le_of_dvd hpos (Nat.dvd_of_mod_eq_zero hdiv)
    exact ih hppt hsorted (hcover.tail (by omega) (by omega))

/-- Below 1009, the least prime above the table, the test accepts the entries only (44_prime.md R223 b). -/
theorem smallPrimes_coversFrom (c : Nat) : CoversFrom smallPrimes 1009 c := by
  have htable : (List.range 1009).filter ppt = smallPrimes := by decide +kernel
  intro x _ hlt hppt
  rw [← htable]
  exact List.mem_filter.mpr ⟨List.mem_range.mpr hlt, hppt⟩

/-- Settles O46: the single pass keeps the candidate a probable prime, never lowers it, and takes it past the table. -/
theorem searchNeverBelow1009 : Obligations.SearchNeverBelow1009 := by
  intro start r h
  obtain ⟨c, ⟨hle, hppt, -⟩, -, hscan⟩ := (search_eq_some_iff_pass start r).mp h
  exact ⟨Nat.le_trans hle hscan.le, hscan.ppt_eq_true hppt,
    hscan.bound_le hppt smallPrimes_pairwise_lt (smallPrimes_coversFrom c), (lt_regLimit_iff r).mp (search_lt h)⟩

end Sys2Proof.Machine
end

section
/-! PROOFS. The key: the derivation finds it by the two searches and the inverse, every committed key is valid, and
KEY.GET shows its members. -/

namespace Sys2Proof.Machine

/-! The two searches of a seed (44_prime.md R229, 45_drsa.md R248). -/

theorem search_eq_some_iff_searchResult (a r : Nat) : search a = some r ↔ SearchResult a r := by
  simp only [search_eq_some_iff_pass, SearchResult, lt_regLimit_iff]

theorem SearchResult.ppt_eq_true {a r : Nat} (h : SearchResult a r) : ppt r = true := by
  obtain ⟨-, hppt, -⟩ := searchNeverBelow1009 a r ((search_eq_some_iff_searchResult a r).mpr h)
  exact hppt

theorem SearchResult.large {a r : Nat} (h : SearchResult a r) : 1009 ≤ r := by
  obtain ⟨-, -, hlarge, -⟩ := searchNeverBelow1009 a r ((search_eq_some_iff_searchResult a r).mpr h)
  exact hlarge

theorem State.seedHalves_readRange (s : State) (off len : Off) :
    seedHalves (s.readRange off len) =
      (s.rangeValue off.toNat (len.toNat / 2),
        s.rangeValue (off.toNat + len.toNat / 2) (len.toNat - len.toNat / 2)) := by
  have hsplit : s.readRange off len =
      memReadRange s.buf off.toNat (len.toNat / 2) ++
        memReadRange s.buf (off.toNat + len.toNat / 2) (len.toNat - len.toNat / 2) := by
    rw [← memReadRange_add, Nat.add_sub_cancel' (Nat.div_le_self _ 2), State.readRange]
  rw [seedHalves, State.readRange_length, hsplit, List.take_left' (memReadRange_length _ _ _),
    List.drop_left' (memReadRange_length _ _ _), ← State.rangeValue_eq_be, ← State.rangeValue_eq_be]

/-- Where both searches have a result, the derivation goes on with the two primes (45_drsa.md R247). -/
theorem deriveKey_readRange {s : State} {off len : Off} {p q : Nat}
    (hp : SearchResult (s.rangeValue off.toNat (len.toNat / 2)) p)
    (hq : SearchResult (s.rangeValue (off.toNat + len.toNat / 2) (len.toNat - len.toNat / 2)) q) :
    deriveKey (s.readRange off len) = keyFromPrimes p q := by
  simp only [deriveKey, State.seedHalves_readRange, (search_eq_some_iff_searchResult _ _).mpr hp,
    (search_eq_some_iff_searchResult _ _).mpr hq]

/-! The steps after the searches (45_drsa.md R247, R250). -/

/-- The totient of two primes of a search is above the public exponent, so the first validation always passes. -/
theorem publicExponent_lt_totient {p q : Nat} (hp : 1009 ≤ p) (hq : 1009 ≤ q) :
    Config.publicExponent < (p - 1) * (q - 1) :=
  calc Config.publicExponent < 1008 * 1008 := by decide
    _ ≤ (p - 1) * (q - 1) := Nat.mul_le_mul (by omega) (by omega)

/-- An inverse below the modulus, of a number below the modulus (43_bignum.md R201). -/
theorem modinv_spec {a m x : Nat} (hm : 1 < m) (ha : a < m) (h : modinv a m = some x) :
    Nat.gcd a m = 1 ∧ 0 < x ∧ x < m ∧ x * a % m = 1 := by
  have hpos : 0 < m := Nat.zero_lt_of_lt hm
  have hgcd : Nat.gcd (a % m) m = 1 := by
    by_contra hne
    cases (modinv_eq_none hne).symm.trans h
  obtain ⟨y, hy, hinv⟩ := modinv_eq_some hpos hgcd
  cases hy.symm.trans h
  have hone : x * a % m = 1 := by rw [Nat.mul_comm, hinv, Nat.mod_eq_of_lt hm]
  have hx : 0 < x := by
    by_contra hzero
    rw [Nat.eq_zero_of_not_pos hzero, Nat.zero_mul, Nat.zero_mod] at hone
    cases hone
  exact ⟨by rwa [Nat.mod_eq_of_lt ha] at hgcd, hx, modinv_lt hpos h, hone⟩

theorem keyFromPrimes_of_modinv {p q d : Nat} (hn : p * q < Config.regLimit)
    (hphi : Config.publicExponent < (p - 1) * (q - 1)) (hgcd : Nat.gcd Config.publicExponent ((p - 1) * (q - 1)) = 1)
    (hd : modinv Config.publicExponent ((p - 1) * (q - 1)) = some d) :
    keyFromPrimes p q = .ok { p := p, q := q, n := p * q, phi := (p - 1) * (q - 1), d := d } := by
  have hone : 1 < Config.publicExponent := by decide
  simp only [keyFromPrimes, storable, hn, hone, hphi, euclidGcd_eq_gcd, hgcd, hd, decide_true, Bool.not_true,
    Bool.false_eq_true, and_self, not_true, ne_eq, if_false]

theorem keyFromPrimes_of_not_coprime {p q : Nat} (hn : p * q < Config.regLimit)
    (hgcd : Nat.gcd Config.publicExponent ((p - 1) * (q - 1)) ≠ 1) : keyFromPrimes p q = .error .eDerive := by
  rw [keyFromPrimes, if_neg (by simp [storable, hn])]
  split
  · rfl
  · exact if_pos (by rwa [euclidGcd_eq_gcd])

/-! What the commands answer when their checks pass. -/

/-- DRSA.DERIVE where the derivation has key material (45_drsa.md R252). -/
theorem exec_drsaDerive_ok {off len : Off} {s : State} {k : KeyMaterial} (hd : s.discard = false)
    (hfits : off.toNat + len.toNat ≤ 1024) (hk : deriveKey (s.readRange off len) = .ok k) :
    exec (.drsaDerive off len) s = .next ((s.commitKey k).answered .ok 0#32) := by
  change execDrsaDerive off len s = _
  rw [execDrsaDerive, hk]
  exact State.command_passed hd (rangeFits_iff.mpr hfits)

/-- DRSA.DERIVE of a range in BUF where the derivation fails (45_drsa.md R250). -/
theorem exec_drsaDerive_error {off len : Off} {s : State} {c : Code} (hd : s.discard = false)
    (hfits : off.toNat + len.toNat ≤ 1024) (hk : deriveKey (s.readRange off len) = .error c) :
    exec (.drsaDerive off len) s = .next (s.answered c 0#32) := by
  change execDrsaDerive off len s = _
  rw [execDrsaDerive, hk, if_neg (by simp [rangeFits_iff.mpr hfits])]
  exact State.command_error hd c

/-- KEY.GET while a key is held (45_drsa.md R256). -/
theorem exec_keyGet {gd : Reg} {s : State} (hd : s.discard = false) (hk : s.keyValid = true) (sel : KeySel) :
    exec (.keyGet gd sel) s = .next ((s.setReg gd (s.keyValue sel)).answered .ok 0#32) :=
  State.command_passed hd hk

/-- Settles O48: each selector's value is the member it names. -/
theorem keyGetCopiesTheMember : Obligations.KeyGetCopiesTheMember := fun _ _ hd hk =>
  ⟨exec_keyGet hd hk .pubN, exec_keyGet hd hk .pubE, exec_keyGet hd hk .privD, exec_keyGet hd hk .privP,
    exec_keyGet hd hk .privQ⟩

/-- Settles O47: the searches have the two primes, and the inverse exists exactly where the gcd is 1. -/
theorem deriveCommitsTheKey : Obligations.DeriveCommitsTheKey := by
  intro off len s p q hd hfits hp hq hn
  have hderive := deriveKey_readRange hp hq
  have hn : p * q < Config.regLimit := (lt_regLimit_iff _).mpr hn
  have hphi := publicExponent_lt_totient hp.large hq.large
  refine ⟨fun hgcd => ?_, fun hgcd => ?_⟩
  · have hpos : 0 < (p - 1) * (q - 1) := Nat.zero_lt_of_lt hphi
    obtain ⟨d, hinv, -⟩ := modinv_eq_some hpos ((congrArg (Nat.gcd · _) (Nat.mod_eq_of_lt hphi)).trans hgcd)
    obtain ⟨-, hd0, hdlt, hone⟩ := modinv_spec (Nat.lt_trans (by decide) hphi) hphi hinv
    exact ⟨d, hd0, hdlt, hone,
      exec_drsaDerive_ok hd hfits (hderive.trans (keyFromPrimes_of_modinv hn hphi hgcd hinv))⟩
  · exact exec_drsaDerive_error hd hfits (hderive.trans (keyFromPrimes_of_not_coprime hn hgcd))

/-! A committed key (45_drsa.md R258). -/

/-- Key material that a derivation answers is a valid key. -/
theorem keySound_commitKey (s : State) {seed : List Byte} {k : KeyMaterial} (h : deriveKey seed = .ok k) :
    KeySound (s.commitKey k) := by
  obtain ⟨c, -, he⟩ | ⟨p, q, hp, hq, he⟩ := deriveKey_cases seed
  · cases he.symm.trans h
  obtain ⟨c, -, hk⟩ | ⟨-, hphi, d, hd, hk⟩ := keyFromPrimes_cases p q
  · cases (he.trans hk).symm.trans h
  cases (he.trans hk).symm.trans h
  have hp := (search_eq_some_iff_searchResult _ _).mp hp
  have hq := (search_eq_some_iff_searchResult _ _).mp hq
  obtain ⟨hgcd, hinverse⟩ := modinv_spec (Nat.lt_trans (by decide) hphi) hphi hd
  exact {
    fromSeed := fun _ => ⟨_, _, hp, hq⟩
    probablePrimes := fun _ => ⟨hp.ppt_eq_true, hq.ppt_eq_true⟩
    large := fun _ => ⟨hp.large, hq.large⟩
    modulus := fun _ => rfl
    totient := fun _ => rfl
    exponentSmall := fun _ => hphi
    coprime := fun _ => hgcd
    inverse := fun _ => hinverse }

/-- The invariant speaks of KEYVALID and the key registers alone. -/
theorem KeySound.of_eq {s t : State} (hs : KeySound s) (hv : t.keyValid = s.keyValid) (hp : t.kp = s.kp)
    (hq : t.kq = s.kq) (hn : t.kn = s.kn) (hphi : t.kphi = s.kphi) (hd : t.kd = s.kd) : KeySound t where
  fromSeed := by rw [hv, hp, hq]; exact hs.fromSeed
  probablePrimes := by rw [hv, hp, hq]; exact hs.probablePrimes
  large := by rw [hv, hp, hq]; exact hs.large
  modulus := by rw [hv, hn, hp, hq]; exact hs.modulus
  totient := by rw [hv, hphi, hp, hq]; exact hs.totient
  exponentSmall := by rw [hv, hphi]; exact hs.exponentSmall
  coprime := by rw [hv, hphi]; exact hs.coprime
  inverse := by rw [hv, hphi, hd]; exact hs.inverse

theorem Update.keeps_keySound {s u : State} (h : Update s u) (hs : KeySound s) : KeySound u := by
  cases h with
  | key seed k hk => exact keySound_commitKey s hk
  | push b => exact hs.of_eq (by simp) (by simp) (by simp) (by simp) (by simp) (by simp)
  | _ => exact hs.of_eq rfl rfl rfl rfl rfl rfl

theorem kept_keySound : Kept KeySound where
  respond _ _ _ hs := hs.of_eq rfl rfl rfl rfl rfl rfl
  accept _ _ hs := hs.of_eq rfl rfl rfl rfl rfl rfl
  tick _ hs := hs.of_eq rfl rfl rfl rfl rfl rfl
  update _ _ hu hs := hu.keeps_keySound hs
  setupEntry _ _ hs := hs.of_eq rfl rfl rfl rfl rfl rfl
  cancelSetup _ hs := hs.of_eq rfl rfl rfl rfl rfl rfl
  byteStep _ hs := hs.of_eq (by simp) (by simp) (by simp) (by simp) (by simp) (by simp)
  reseedAndNext _ hs := hs.of_eq (by simp) (by simp) (by simp) (by simp) (by simp) (by simp)

/-- Settles O56: only a derivation writes the key registers, all five together; a reset leaves no key. -/
theorem stepKeepsKeySound : Obligations.StepKeepsKeySound :=
  fun _ _ h hs => kept_keySound.step (fun _ => keySound_of_no_key rfl) h hs

end Sys2Proof.Machine
end

section
/-! PROOFS. The system and buffer commands: the status word field by field, one cell of BUF, the two resets. -/

namespace Sys2Proof.Machine

/-! The status word (10_state.md R34): each term of the OR has its ones in its own field. -/

/-- A flag shifted to a place has its one bit there. -/
theorem flagBit_shiftLeft_getLsbD (b : Bool) {k : Nat} (hk : k < 32) (i : Nat) :
    (flagBit b <<< k).getLsbD i = (decide (i = k) && b) := by
  cases b with
  | false => simp [flagBit]
  | true =>
    simp only [flagBit, if_true, BitVec.getLsbD_shiftLeft, BitVec.getLsbD_one, Bool.and_true]
    grind

/-- A length shifted to a place has its bits in the five places from there on. -/
theorem length_shiftLeft_getLsbD (n : Fin 32) {k : Nat} (hk : k + 5 ≤ 32) (i : Nat) :
    (BitVec.ofNat 32 n.val <<< k).getLsbD i = (decide (k ≤ i ∧ i < k + 5) && n.val.testBit (i - k)) := by
  rw [BitVec.getLsbD_shiftLeft, BitVec.getLsbD_ofNat]
  by_cases habove : k + 5 ≤ i
  · have hpow : 2 ^ 5 ≤ 2 ^ (i - k) := Nat.pow_le_pow_right (by decide) (by omega)
    have hbit : n.val.testBit (i - k) = false := Nat.testBit_lt_two_pow (Nat.lt_of_lt_of_le n.isLt hpow)
    simp [hbit]
  · grind

/-- Every bit of the status word. -/
theorem State.statusWord_getLsbD (s : State) (i : Nat) :
    s.statusWord.getLsbD i =
      (decide (i = 0) && s.seeded || decide (i = 1) && s.patValid || decide (i = 2) && s.keyValid ||
        decide (i = 3) && s.discard || decide (8 ≤ i ∧ i < 13) && s.patLen.val.testBit (i - 8) ||
        decide (16 ≤ i ∧ i < 21) && s.winLen.val.testBit (i - 16)) := by
  have hseeded := flagBit_shiftLeft_getLsbD s.seeded (k := 0) (by decide) i
  rw [BitVec.shiftLeft_zero] at hseeded
  simp only [State.statusWord, BitVec.getLsbD_or, hseeded, flagBit_shiftLeft_getLsbD, length_shiftLeft_getLsbD,
    Nat.reduceAdd, Nat.reduceLT, Nat.reduceLeDiff]

/-- A field of five bits that are a length's reads as that length. -/
theorem extractLsb'_toNat_eq_length {w start : Nat} {x : BitVec w} {n : Fin 32}
    (h : ∀ i, i < 5 → x.getLsbD (start + i) = n.val.testBit i) : (x.extractLsb' start 5).toNat = n.val := by
  have hfield : x.extractLsb' start 5 = BitVec.ofNat 5 n.val :=
    BitVec.eq_of_getLsbD_eq fun i hi => by rw [BitVec.getLsbD_extractLsb', BitVec.getLsbD_ofNat, h i hi]
  rw [hfield, BitVec.toNat_ofNat]
  exact Nat.mod_eq_of_lt n.isLt

/-- Between the fields of the status word all bits are 0. -/
theorem State.statusWord_gap (s : State) {start len : Nat}
    (h : 4 ≤ start ∧ start + len ≤ 8 ∨ 13 ≤ start ∧ start + len ≤ 16 ∨ 21 ≤ start) :
    s.statusWord.extractLsb' start len = 0#len :=
  BitVec.eq_of_getLsbD_eq fun i hi => by
    rw [BitVec.getLsbD_extractLsb', State.statusWord_getLsbD]
    grind

/-- Settles O18: each field read off the bits of the status word. -/
theorem statusWordLayout : Obligations.StatusWordLayout := by
  intro s
  have hpatLen : (s.statusWord.extractLsb' 8 5).toNat = s.patLen.val :=
    extractLsb'_toNat_eq_length fun i hi => by
      rw [State.statusWord_getLsbD]
      grind
  have hwinLen : (s.statusWord.extractLsb' 16 5).toNat = s.winLen.val :=
    extractLsb'_toNat_eq_length fun i hi => by
      rw [State.statusWord_getLsbD]
      grind
  refine ⟨s.statusWord, rfl, ?_, ?_, ?_, ?_, s.statusWord_gap (by decide), hpatLen,
    s.statusWord_gap (by decide), hwinLen, s.statusWord_gap (by decide)⟩
  all_goals
    rw [State.statusWord_getLsbD]
    simp

/-! One cell of BUF. -/

/-- BUF.RD: every offset of its ten bits is a cell of BUF (46_system.md R275). -/
theorem exec_bufRd {off : Off} {s : State} (hd : s.discard = false) :
    exec (.bufRd off) s = .next (s.answered .ok ((memRead s.buf off.toNat).setWidth 32)) := by
  have hcell : cellFits off = true := decide_eq_true off.isLt
  change execBufRd off s = _
  rw [execBufRd, if_pos hcell]
  exact State.command_ok hd _ _

/-- Settles O19: what a read finds after a write. -/
theorem bufWriteAndRead : Obligations.BufWriteAndRead := fun off byte s hd =>
  ⟨⟨memWrite s.buf off.toNat byte, exec_bufWr hd, fun a => memRead_memWrite s.buf off.toNat a byte⟩, exec_bufRd hd⟩

/-! The two resets. -/

/-- SYS.RESET has no check to pass (46_system.md R272). -/
theorem exec_sysReset (s : State) : exec .sysReset s = .next (s.resetBlock.answered .ok 0#32) := rfl

/-- Hard reset wins over whatever the block was doing (60_exceptions.md R302 a, 70_reset_and_hazards.md R326). -/
theorem step_of_hardReset {s : State} (hr : s.pins.hardReset = true) : step s = .next s.resetBlock.tick := by
  rw [step, State.blockStep, if_pos hr, State.hardReset]

/-- Settles O6: both give the reset block; hard reset puts nothing on the port and the host's next levels come. -/
theorem bothResetsLeaveTheResetState : Obligations.BothResetsLeaveTheResetState :=
  ⟨exec_sysReset, fun _ hr => step_of_hardReset hr⟩

end Sys2Proof.Machine
end

section
/-! PROOFS. The exchange on the port: what an idle block does with a packet, the response port's codes and values, and
what a packet answered with an error leaves unchanged. -/

namespace Sys2Proof.Machine

/-! The response port (60_exceptions.md R286, 30_encoding.md R88). -/

/-- A response the block gives carries one of the ten codes; only OK has a value. -/
theorem responseSound_respond (s : State) {c : Code} {v : BitVec 32} (hv : c ≠ .ok → v = 0#32) :
    ResponseSound (s.respond c v) := by
  intro r hr
  cases hr
  exact ⟨⟨c, rfl⟩, fun hne => hv fun hc => hne (congrArg Code.bits hc)⟩

/-- The invariant looks at the port alone. -/
theorem ResponseSound.of_eq {s t : State} (hs : ResponseSound s) (h : t.response = s.response) : ResponseSound t :=
  fun r hr => hs r (h.symm.trans hr)

theorem ResponseSound.tick {s : State} (hs : ResponseSound s) : ResponseSound s.tick := hs.of_eq s.tick_response

/-- Whatever was on the port, a command answers with a sound response, or with none where a setup begins. -/
theorem responseSound_exec {i : Instr} {s t : State} (h : exec i s = .next t) : ResponseSound t := by
  cases exec_answer h with
  | error _ c _ => exact responseSound_respond s fun _ => rfl
  | done _ u v _ _ => exact responseSound_respond u fun hok => absurd rfl hok
  | status => exact responseSound_respond s fun hok => absurd rfl hok
  | reset => exact responseSound_respond _ fun _ => rfl
  | setupBegins arg => exact responseSound_of_none rfl
  | setupCancelled arg => exact responseSound_respond _ fun _ => rfl

/-- The end of an outer iteration answers (OK, 0) or leaves the port alone (42_prbg_setup.md R168). -/
theorem ResponseSound.nextIteration {s : State} (hs : ResponseSound s) : ResponseSound s.nextIteration := by
  unfold State.nextIteration
  split
  · exact responseSound_respond _ fun _ => rfl
  · exact hs

/-- Settles O58: a transition gives a sound response, empties the port or leaves it alone. -/
theorem stepKeepsResponseSound : Obligations.StepKeepsResponseSound := by
  intro s t h hs
  cases step_transition h with
  | hardReset => exact (responseSound_of_none (s := s.resetBlock) rfl).tick
  | wait => exact hs.tick
  | illegal p rest e => exact (responseSound_respond (s.accept rest) fun _ => rfl).tick
  | run p rest i u _ _ _ _ hx => exact (responseSound_exec hx).tick
  | cancel => exact (responseSound_respond { s with discard := true, phase := .idle } fun _ => rfl).tick
  | byte => exact (hs.of_eq s.byteStep_response).tick
  | reseed =>
    have hdrawn : ResponseSound s.setupReseed.clearWindow := hs.of_eq rfl
    exact hdrawn.nextIteration.tick

/-- Settles O13: code by code. -/
theorem responseCodeNumbers : Obligations.ResponseCodeNumbers := rfl

/-! Taking a packet (60_exceptions.md R320). -/

theorem runPacket_of_decode {p : Packet} {i : Instr} (hdec : decode p = .ok i) (s : State) :
    runPacket p s = exec i s := by
  rw [runPacket, hdec]

theorem runPacket_of_illegal {p : Packet} {e : IllegalPacket} (hdec : decode p = .error e) (s : State) :
    runPacket p s = .next (s.respond .eIllegal 0#32) := by
  rw [runPacket, hdec]

/-- An idle block takes and runs its next packet, then the host's next levels come. -/
theorem step_of_packet {s t : State} {p : Packet} {rest : List Packet} (hr : s.pins.hardReset = false)
    (hidle : s.phase = .idle) (hp : s.packets = p :: rest) (hrun : runPacket p (s.accept rest) = .next t) :
    step s = .next t.tick := by
  rw [step, State.blockStep, if_neg (by simp [hr]), hidle]
  exact State.idleStep_cons hp hrun

/-- Settles O7: every command answers a next state, and the step is that state with the host's next levels. -/
theorem stepRunsTheDecodedCommand : Obligations.StepRunsTheDecodedCommand := by
  intro s p rest i hr hidle hp hdec
  obtain ⟨t, ht⟩ := exec_next i (s.accept rest)
  have hexec : exec i { s with packets := rest, response := none } = .next t := ht
  rw [hexec]
  exact step_of_packet hr hidle hp ((runPacket_of_decode hdec _).trans ht)

/-- Settles O8: the decoder's answer comes before every other check (60_exceptions.md R294). -/
theorem illegalPacketIsAnsweredEIllegal : Obligations.IllegalPacketIsAnsweredEIllegal :=
  fun s _ rest _ hr hidle hp hdec => step_of_packet hr hidle hp (runPacket_of_illegal hdec (s.accept rest))

/-! What an error leaves unchanged (60_exceptions.md R295, R296). -/

/-- A command answered with an E_ code changes the port alone. -/
theorem exec_answered_error {i : Instr} {s t : State} {c : Code} {v : BitVec 32} (h : exec i s = .next t)
    (hv : t.response = some { code := c.bits, val := v }) (hok : c ≠ .ok) (hcancelled : c ≠ .cancelled) :
    t = s.answered c 0#32 := by
  cases exec_answer h with
  | error _ d _ =>
    rw [State.respond_code hv]
    rfl
  | done | status | reset => exact absurd (State.respond_code hv).symm hok
  | setupBegins arg => cases hv
  | setupCancelled arg => exact absurd (State.respond_code hv).symm hcancelled

/-- Settles O10: an illegal packet and a command that fails a check give a response and nothing else. -/
theorem errorsChangeNothing : Obligations.ErrorsChangeNothing := by
  intro p s t c v h hv hok hcancelled
  cases hdec : decode p with
  | ok i => exact exec_answered_error ((runPacket_of_decode hdec s).symm.trans h) hv hok hcancelled
  | error e =>
    cases (runPacket_of_illegal hdec s).symm.trans h
    rw [State.respond_code hv]
    rfl

/-- Settles O11: the common check of DISCARD, and the check of KEYVALID that KEY.GET begins with. -/
theorem discardAndNokeyAnswers : Obligations.DiscardAndNokeyAnswers :=
  ⟨fun _ _ => exec_of_discard, fun _ _ _ => State.command_check _⟩

end Sys2Proof.Machine
end

section
/-! PROOFS. The checks of each command and the codes they answer, in the order of 60_exceptions.md R294: the
configuration, the range, the value. -/

namespace Sys2Proof.Machine

/-- A command whose first check fails answers the code of that check. -/
theorem State.command_fails {s : State} {failed : Prop} [Decidable failed] {c : Code} (e : Effect)
    (hd : s.discard = false) (h : failed) : s.command (if failed then .error c else e) = .next (s.answered c 0#32) := by
  rw [if_pos h]
  exact State.command_error hd c

/-! Ranges (60_exceptions.md R291). -/

theorem rangeFits_eq_false {off len : Off} (h : 1024 < off.toNat + len.toNat) : rangeFits off len = false :=
  decide_eq_false (Nat.not_le.mpr h)

/-- A command that has come to its range check, on a range that reaches past BUF. -/
theorem State.command_range {off len : Off} {s : State} (e : Effect) (hd : s.discard = false)
    (h : 1024 < off.toNat + len.toNat) :
    s.command (if !rangeFits off len then .error .eRange else e) = .next (s.answered .eRange 0#32) :=
  State.command_check e hd (rangeFits_eq_false h)

theorem exec_xsReseed_eRange {off len : Off} {s : State} (hd : s.discard = false)
    (h : 1024 < off.toNat + len.toNat) (hlen : len ≠ 0#10) :
    exec (.xsReseed off len) s = .next (s.answered .eRange 0#32) := by
  change execXsReseed off len s = _
  rw [execXsReseed, if_neg hlen]
  exact State.command_range _ hd h

theorem exec_xsFill_eRange {off len : Off} {s : State} (hd : s.discard = false)
    (h : 1024 < off.toNat + len.toNat) (hseeded : s.seeded = true) :
    exec (.xsFill off len) s = .next (s.answered .eRange 0#32) := by
  change execXsFill off len s = _
  rw [execXsFill, if_neg (by simp [hseeded])]
  exact State.command_range _ hd h

/-- The length check of SW.LOADPAT, as a condition on the length's value (41_window.md R136). -/
theorem badPatternLength_iff (len : Off) :
    (len = 0#10 ∨ Config.maxPattern < len.toNat) ↔ len.toNat = 0 ∨ 31 < len.toNat :=
  or_congr_left BitVec.toNat_eq

theorem exec_swLoadpat_eRange {off len : Off} {s : State} (hd : s.discard = false)
    (h : 1024 < off.toNat + len.toNat) (hpos : 1 ≤ len.toNat) (hmax : len.toNat ≤ 31) :
    exec (.swLoadpat off len) s = .next (s.answered .eRange 0#32) := by
  have hlen : ¬(len.toNat = 0 ∨ 31 < len.toNat) := by omega
  change execSwLoadpat off len s = _
  rw [execSwLoadpat, if_neg (mt (badPatternLength_iff len).mp hlen)]
  exact State.command_range _ hd h

/-- Settles O49: XS.RESEED, XS.FILL and SW.LOADPAT check their configuration first, the other three the range. -/
theorem rangeErrors : Obligations.RangeErrors := fun _ _ _ _ hd h =>
  ⟨exec_xsReseed_eRange hd h, exec_xsFill_eRange hd h, exec_swLoadpat_eRange hd h, State.command_range _ hd h,
    State.command_range _ hd h, State.command_range _ hd h⟩

/-! Lengths and counts (60_exceptions.md R288). -/

theorem exec_swLoadpat_eConfig {off len : Off} {s : State} (hd : s.discard = false)
    (h : len.toNat = 0 ∨ 31 < len.toNat) : exec (.swLoadpat off len) s = .next (s.answered .eConfig 0#32) :=
  State.command_fails _ hd ((badPatternLength_iff len).mpr h)

theorem exec_xsReseed_eConfig {off len : Off} {s : State} (hd : s.discard = false) (hlen : len = 0#10) :
    exec (.xsReseed off len) s = .next (s.answered .eConfig 0#32) :=
  State.command_fails _ hd hlen

/-- Settles O50: the check of the length or of the count is each command's first. -/
theorem configurationErrors : Obligations.ConfigurationErrors := fun _ _ _ hd =>
  ⟨exec_swLoadpat_eConfig hd, exec_xsReseed_eConfig hd rfl, exec_prbgSetup_eConfig hd (.inr (.inr rfl))⟩

/-! Values that do not fit, and zero moduli (60_exceptions.md R292, R293). -/

theorem exec_bnLoad_eOverflow {gd : Reg} {off len : Off} {s : State} (hd : s.discard = false)
    (hfits : off.toNat + len.toNat ≤ 1024) (hv : ¬be (s.readRange off len) < Config.regLimit) :
    exec (.bnLoad gd off len) s = .next (s.answered .eOverflow 0#32) := by
  change execBnLoad gd off len s = _
  rw [execBnLoad, if_neg (by simp [rangeFits_iff.mpr hfits])]
  exact State.command_check _ hd (decide_eq_false hv)

theorem exec_bnStore_eOverflow {gs : Reg} {off len : Off} {s : State} (hd : s.discard = false)
    (hfits : off.toNat + len.toNat ≤ 1024) (hv : 256 ^ len.toNat ≤ s.reg gs) :
    exec (.bnStore gs off len) s = .next (s.answered .eOverflow 0#32) := by
  change execBnStore gs off len s = _
  rw [execBnStore, if_neg (by simp [rangeFits_iff.mpr hfits])]
  exact State.command_fails _ hd hv

theorem nextpp_eq_none {n : Nat} (h : ∀ x, n ≤ x → x < 2 ^ 4096 → ppt x = false) : nextpp n = none := by
  refine Option.eq_none_iff_forall_ne_some.mpr fun v hv => ?_
  obtain ⟨⟨hle, hppt, -⟩, hlt⟩ := (nextpp_eq_some_iff n v).mp hv
  exact absurd ((h v hle ((lt_regLimit_iff v).mp hlt)).symm.trans hppt) Bool.false_ne_true

theorem exec_prNextpp_eOverflow {gd gs1 : Reg} {s : State} (hd : s.discard = false) (h : nextpp (s.reg gs1) = none) :
    exec (.prNextpp gd gs1) s = .next (s.answered .eOverflow 0#32) := by
  change execPrNextpp gd gs1 s = _
  rw [execPrNextpp, h]
  exact State.command_error hd _

theorem search_eq_none {a : Nat} (h : ¬∃ r, SearchResult a r) : search a = none :=
  Option.eq_none_iff_forall_ne_some.mpr fun r hr => h ⟨r, (search_eq_some_iff_searchResult a r).mp hr⟩

theorem exec_prSearch_eOverflow {gd gs1 : Reg} {s : State} (hd : s.discard = false) (h : search (s.reg gs1) = none) :
    exec (.prSearch gd gs1) s = .next (s.answered .eOverflow 0#32) := by
  change execPrSearch gd gs1 s = _
  rw [execPrSearch, h]
  exact State.command_error hd _

theorem keyFromPrimes_eOverflow {p q : Nat} (hn : ¬p * q < Config.regLimit) :
    keyFromPrimes p q = .error .eOverflow := by
  rw [keyFromPrimes, if_pos (by simp [storable, hn])]

theorem deriveKey_of_first_none {seed : List Byte} (h : search (seedHalves seed).1 = none) :
    deriveKey seed = .error .eOverflow := by
  rw [deriveKey, h]

/-- Whether or not the first search has a result. -/
theorem deriveKey_of_second_none {seed : List Byte} (h : search (seedHalves seed).2 = none) :
    deriveKey seed = .error .eOverflow := by
  rw [deriveKey, h]
  cases search (seedHalves seed).1 with
  | none => rfl
  | some p => rfl

/-- The derivation overflows where a half has no result or the product does not fit (45_drsa.md R247). -/
theorem deriveKey_readRange_eOverflow {s : State} {off len : Off}
    (h : (¬∃ p, SearchResult (s.rangeValue off.toNat (len.toNat / 2)) p) ∨
      (¬∃ q, SearchResult (s.rangeValue (off.toNat + len.toNat / 2) (len.toNat - len.toNat / 2)) q) ∨
      ∃ p q, SearchResult (s.rangeValue off.toNat (len.toNat / 2)) p ∧
        SearchResult (s.rangeValue (off.toNat + len.toNat / 2) (len.toNat - len.toNat / 2)) q ∧ 2 ^ 4096 ≤ p * q) :
    deriveKey (s.readRange off len) = .error .eOverflow := by
  obtain hfirst | hsecond | ⟨p, q, hp, hq, hn⟩ := h
  · exact deriveKey_of_first_none (by rw [State.seedHalves_readRange]; exact search_eq_none hfirst)
  · exact deriveKey_of_second_none (by rw [State.seedHalves_readRange]; exact search_eq_none hsecond)
  · rw [deriveKey_readRange hp hq]
    exact keyFromPrimes_eOverflow (by rwa [lt_regLimit_iff, Nat.not_lt])

/-- Settles O51: the size check of each command, the searches without a result, and the check of the modulus. -/
theorem overflowAndDomainErrors : Obligations.OverflowAndDomainErrors := by
  intro off len gd a b c s hd
  refine ⟨fun hfits hv => ?_, exec_bnStore_eOverflow hd, fun hnone => ?_, fun hnone => ?_, fun hfits hnone => ?_,
    State.command_fails _ hd, State.command_fails _ hd⟩
  · rw [State.rangeValue_eq_be] at hv
    exact exec_bnLoad_eOverflow hd hfits (by rwa [lt_regLimit_iff, Nat.not_lt])
  · exact exec_prNextpp_eOverflow hd (nextpp_eq_none hnone)
  · exact exec_prSearch_eOverflow hd (search_eq_none hnone)
  · exact exec_drsaDerive_error hd hfits (deriveKey_readRange_eOverflow hnone)

end Sys2Proof.Machine
end

section
/-! PROOFS. The codes each command gives: the errors its own checks can raise, and with OK and E_DISCARD its row of the
table of 60_exceptions.md R297. -/

namespace Sys2Proof.Machine

/-! The codes of a computation that may fail. -/

/-- The computation succeeds or fails with a code of the list. -/
inductive ErrorsIn {α : Type} (codes : List Code) : Except Code α → Prop where
  | ok (a : α) : ErrorsIn codes (.ok a)
  | error {c : Code} : c ∈ codes → ErrorsIn codes (.error c)

theorem errorsIn_error_iff {α : Type} {codes : List Code} {c : Code} :
    ErrorsIn codes (.error c : Except Code α) ↔ c ∈ codes := by
  refine ⟨fun h => ?_, .error⟩
  cases h with
  | error hc => exact hc

/-- A check that raises a listed code, then the rest. -/
theorem ErrorsIn.check {α : Type} {codes : List Code} {failed : Prop} [Decidable failed] {c : Code}
    {e : Except Code α} (hc : c ∈ codes) (he : ErrorsIn codes e) :
    ErrorsIn codes (if failed then .error c else e) := by
  split
  · exact .error hc
  · exact he

/-- A success where the condition holds, else a listed code. -/
theorem ErrorsIn.unless {α : Type} {codes : List Code} {passed : Prop} [Decidable passed] {c : Code} (a : α)
    (hc : c ∈ codes) : ErrorsIn codes (if passed then .ok a else .error c) := by
  split
  · exact .ok a
  · exact .error hc

/-- The steps of the derivation after the searches (45_drsa.md R247, R250). -/
theorem keyFromPrimes_errorsIn (p q : Nat) : ErrorsIn [.eOverflow, .eDerive] (keyFromPrimes p q) := by
  unfold keyFromPrimes
  refine .check (by decide) (.check (by decide) (.check (by decide) ?_))
  cases modinv Config.publicExponent ((p - 1) * (q - 1)) with
  | none => exact .error (by decide)
  | some d => exact .ok _

/-- A derivation fails with E_OVERFLOW or E_DERIVE (45_drsa.md R247). -/
theorem deriveKey_errorsIn (seed : List Byte) : ErrorsIn [.eOverflow, .eDerive] (deriveKey seed) := by
  unfold deriveKey
  cases search (seedHalves seed).1 with
  | none => exact .error (by decide)
  | some p =>
    cases search (seedHalves seed).2 with
    | none => exact .error (by decide)
    | some q => exact keyFromPrimes_errorsIn p q

/-! The codes of a command. -/

/-- The port carries a response with a code of the list. -/
def State.RespondedIn (t : State) (codes : List Code) : Prop :=
  ∃ c v, c ∈ codes ∧ t.response = some { code := c.bits, val := v }

theorem State.respondedIn_respond (s : State) {codes : List Code} {c : Code} (v : BitVec 32) (hc : c ∈ codes) :
    (s.respond c v).RespondedIn codes :=
  ⟨c, v, hc, rfl⟩

/-- Under the common checks a command answers OK, E_DISCARD or a code of its own checks (60_exceptions.md R294). -/
theorem State.command_respondedIn {s t : State} {e : Effect} (errors : List Code) (he : ErrorsIn errors e)
    (h : s.command e = .next t) : t.RespondedIn (.ok :: .eDiscard :: errors) := by
  obtain ⟨-, rfl⟩ | ⟨-, u, v, -, rfl⟩ | ⟨-, c, rfl, rfl⟩ := State.command_cases h
  · exact s.respondedIn_respond _ (by simp)
  · exact u.respondedIn_respond v (by simp)
  · exact s.respondedIn_respond _ (by simp [errorsIn_error_iff.mp he])

/-- PRBG.SETUP answers at once with E_DISCARD, E_CONFIG or CANCELLED, or it begins and the port is empty
(42_prbg_setup.md R168, R172). -/
theorem exec_prbgSetup_respondedIn {arg : BitVec 32} {s t : State} (h : exec (.prbgSetup arg) s = .next t) :
    t.RespondedIn [.eDiscard, .eConfig, .cancelled] ∨ t.phase = .sampling ∧ t.response = none := by
  cases hd : s.discard with
  | true =>
    cases (exec_of_discard (i := .prbgSetup arg) hd nofun nofun).symm.trans h
    exact .inl (s.respondedIn_respond _ (by decide))
  | false =>
    by_cases hchecks : s.seeded = false ∨ s.patValid = false ∨ arg = 0#32
    · cases (exec_prbgSetup_eConfig hd hchecks).symm.trans h
      exact .inl (s.respondedIn_respond _ (by decide))
    · simp only [not_or, Bool.not_eq_false] at hchecks
      obtain ⟨hseeded, hpat, harg⟩ := hchecks
      cases hc : s.pins.cancelReq with
      | true =>
        cases (exec_prbgSetup_cancelled hd hseeded hpat harg hc).symm.trans h
        exact .inl (State.respondedIn_respond _ _ (by decide))
      | false =>
        cases (exec_prbgSetup_begins hd hseeded hpat harg hc).symm.trans h
        exact .inr ⟨rfl, rfl⟩

/-- Every command but PRBG.SETUP answers at once, with a code of its row of the table. -/
theorem exec_respondedIn {i : Instr} {s t : State} (h : exec i s = .next t) (hi : ∀ arg, i ≠ .prbgSetup arg) :
    t.RespondedIn (possibleCodes i) := by
  cases i with
  | prbgSetup arg => exact absurd rfl (hi arg)
  | sysStatus | sysReset =>
    cases h
    exact State.respondedIn_respond _ _ (List.mem_singleton_self _)
  | bnGcd | prSieve | prPptest => exact State.command_respondedIn [] (.ok (_, _)) h
  | bufWr | bufRd => exact State.command_respondedIn [.eRange] (.unless _ (by decide)) h
  | xsNext | swPush | swMatch | swClear => exact State.command_respondedIn [.eConfig] (.check (by decide) (.ok _)) h
  | keyGet => exact State.command_respondedIn [.eNokey] (.check (by decide) (.ok _)) h
  | bnModexp => exact State.command_respondedIn [.eDomain] (.check (by decide) (.ok _)) h
  | xsReseed | xsFill | swLoadpat =>
    exact State.command_respondedIn [.eConfig, .eRange] (.check (by decide) (.check (by decide) (.ok _))) h
  | bnLoad | bnStore =>
    exact State.command_respondedIn [.eRange, .eOverflow] (.check (by decide) (.check (by decide) (.ok _))) h
  | bnModinv gd gs1 gs2 =>
    refine State.command_respondedIn [.eDomain] (.check (by decide) ?_) h
    cases modinv (s.reg gs1) (s.reg gs2) with
    | none => exact .error (by decide)
    | some x => exact .ok _
  | prNextpp gd gs1 =>
    refine State.command_respondedIn [.eOverflow] ?_ h
    cases nextpp (s.reg gs1) with
    | none => exact .error (by decide)
    | some v => exact .ok _
  | prSearch gd gs1 =>
    refine State.command_respondedIn [.eOverflow] ?_ h
    cases search (s.reg gs1) with
    | none => exact .error (by decide)
    | some v => exact .ok _
  | drsaDerive off len =>
    refine State.command_respondedIn [.eRange, .eOverflow, .eDerive] (.check (by decide) ?_) h
    have herrors := deriveKey_errorsIn (s.readRange off len)
    cases hk : deriveKey (s.readRange off len) with
    | ok k => exact .ok _
    | error c => exact .error (List.mem_cons_of_mem _ (errorsIn_error_iff.mp (hk ▸ herrors)))

/-- Settles O12: only a PRBG.SETUP can begin without an answer. -/
theorem codesEachCommandGives : Obligations.CodesEachCommandGives := by
  intro i s t h
  by_cases hi : ∃ arg, i = .prbgSetup arg
  · obtain ⟨arg, rfl⟩ := hi
    exact (exec_prbgSetup_respondedIn h).imp_right fun hbegun => ⟨⟨arg, rfl⟩, hbegun⟩
  · exact .inl (exec_respondedIn h (not_exists.mp hi))

end Sys2Proof.Machine
end
